-- ==== Sys2Proof/Syntax.lean ====
section
/-! DEFINITION. The operations of the block: one constructor per row of spec/opcode_table.json.
The selector has no operand fields and no immediates (30_encoding.md R69): operands arrive on the
ports, so no constructor takes an argument. -/

namespace Sys2Proof

/-- The seven operations of 30_encoding.md R70. Selector 111 is reserved (R71) and is no
operation. -/
inductive Instr where
  /-- `ENCODE`: write image to write frame (40_codec.md R79). -/
  | encode
  /-- `DECODE`: read frame to device status (40_codec.md R81). -/
  | decode
  /-- `LOWER`: device config to write image, with validation (40_codec.md R76). -/
  | lower
  /-- `TO_REG`: frequency and crystal to divisor (41_pll.md R85). -/
  | toReg
  /-- `FROM_REG`: divisor and crystal to frequency (41_pll.md R88). -/
  | fromReg
  /-- `SPLIT`: divisor to register pair (41_pll.md R90). -/
  | split
  /-- `JOIN`: register pair to divisor (41_pll.md R91). -/
  | join
deriving DecidableEq, Repr

end Sys2Proof
end

