-- ==== Sys2Proof/Word.lean ====
section
/-! DEFINITION. The bit-vector types the spec names (00_scope.md R10): one name per width. -/

namespace Sys2Proof

/-- `Bit`, one of 0 and 1 (R10). -/
abbrev Bit := BitVec 1

/-- `Byte` = `UInt_8` (R10). -/
abbrev Byte := BitVec 8

/-- The operation selector `op[2:0]` (R69). -/
abbrev Selector := BitVec 3

/-- The 14-bit PLL divisor, `UInt_14` (R13). -/
abbrev Divisor := BitVec 14

/-- The divisor's bits 13..8, `UInt_6` (R13). -/
abbrev UpperPart := BitVec 6

/-- The divisor's bits 7..0, `UInt_8` (R13). -/
abbrev LowerPart := BitVec 8

end Sys2Proof
end

