-- ==== Sys2Proof/Decode.lean ====
section
/-! DEFINITION. The operation map (30_encoding.md R69 to R71): the selector's decoder, total on its
eight values and rejecting the reserved one by name, and after it the encoder. -/

namespace Sys2Proof

/-- Why a selector names no operation. -/
inductive DecodeError where
  /-- `op = 111` is reserved (R71). Raised by `decode`; safe: the block then reports
  `IllegalOperation`. -/
  | reservedSelector (op : Selector)
deriving DecidableEq, Repr

/-- The operation map of R70. -/
def decode (op : Selector) : Except DecodeError Instr :=
  match op.toNat with
  | 0 => .ok .encode
  | 1 => .ok .decode
  | 2 => .ok .lower
  | 3 => .ok .toReg
  | 4 => .ok .fromReg
  | 5 => .ok .split
  | 6 => .ok .join
  | _ => .error (.reservedSelector op)

/-- The selector value of each operation (R70). -/
def encode (i : Instr) : Selector :=
  match i with
  | .encode => 0b000
  | .decode => 0b001
  | .lower => 0b010
  | .toReg => 0b011
  | .fromReg => 0b100
  | .split => 0b101
  | .join => 0b110

/-- The selector wires of a word of `nbits` bits: bits 2..0 of it. The selector has no other bits
(R69), so the rest of a byte that pads it reaches no wire (log entry 7). -/
def selectorOfWord (nbits w : Nat) : Selector :=
  BitVec.ofNat 3 (w % 2 ^ nbits)

/-- The operation the decoder reads from a table word. -/
def decodeTableWord (nbits w : Nat) : Option Instr :=
  match decode (selectorOfWord nbits w) with
  | .ok i => some i
  | .error _ => none

end Sys2Proof
end

