-- ==== Sys2Proof/Machine/DataModel.lean ====
section
/-! DEFINITION. The values the ports carry: `DeviceConfig`, `WriteImage`, `DeviceStatus`, `Frame`
(10_state.md R24 to R33), the result an operation drives (R36) and the errors it can report
(60_exceptions.md R98). Plain data; none of it is stored in the block (R20). -/

namespace Sys2Proof.Machine

/-- `searchDirection : {Up, Down}` (R24). Its code is R65's. -/
inductive SearchDirection where
  | down
  | up
deriving DecidableEq, Repr

/-- `injectionSide : {High, Low}` (R24). Its code is R67's. -/
inductive InjectionSide where
  | low
  | high
deriving DecidableEq, Repr

/-- The named search stop levels (R25). The field itself is the 2-bit code, which can also be 0. -/
inductive StopLevel where
  | low
  | mid
  | high
deriving DecidableEq, Repr

/-- The values of the open parameter `INVERSE_TIE_RULE` (00_scope.md R8). -/
inductive TieRule where
  /-- An exact half goes to the greater integer. -/
  | halfUp
  /-- An exact half goes to the even integer. -/
  | halfEven
deriving DecidableEq, Repr

/-- The write-side configuration, in the source's field order (R24). -/
structure DeviceConfig where
  mute : Bool
  searchMode : Bool
  searchDirection : SearchDirection
  /-- The 2-bit code of R25; LOWER refuses 0. -/
  searchStopLevel : BitVec 2
  injectionSide : InjectionSide
  forcedMono : Bool
  muteLeft : Bool
  muteRight : Bool
  softwarePort1 : Bool
  softwarePort2 : Bool
  /-- The field R28 adds for write byte 3 bit 0. -/
  softwarePort1Ready : Bool
  standby : Bool
  japaneseBand : Bool
  /-- Any natural number of Hz; only three are supported (R26). -/
  crystalFrequencyHz : Nat
  softMute : Bool
  highCutControl : Bool
  stereoNoiseCanceling : Bool
  deEmphasis75us : Bool
  /-- The exact number of MHz (R27). -/
  stationFrequencyMHz : Rat
deriving DecidableEq, Repr

/-- The register-level form of a config: 21 fields, 34 bits, each at its exact width (R30). -/
structure WriteImage where
  mute : Bit
  searchMode : Bit
  upperFreq : UpperPart
  lowerFreq : LowerPart
  searchDirection : Bit
  searchStopLevel : BitVec 2
  injectionSide : Bit
  forcedMono : Bit
  muteRight : Bit
  muteLeft : Bit
  softwarePort1 : Bit
  softwarePort2 : Bit
  standby : Bit
  japaneseBand : Bit
  xtalSelect : Bit
  softMute : Bit
  highCutControl : Bit
  stereoNoiseCanceling : Bit
  softwarePort1Ready : Bit
  pllRefSelect : Bit
  deEmphasis75us : Bit
deriving DecidableEq, Repr

/-- Exactly 5 bytes `B[0] .. B[4]` (R10, R45), `b0` the first on the wire (R41, R42). -/
structure Frame where
  b0 : Byte
  b1 : Byte
  b2 : Byte
  b3 : Byte
  b4 : Byte
deriving DecidableEq, Repr

/-- The read-side status (R32). -/
structure DeviceStatus where
  ready : Bool
  bandLimitReached : Bool
  frequencyRegister : Divisor
  stereo : Bool
  ifCounter : BitVec 7
  signalLevel : BitVec 4
  chipId : BitVec 3
deriving DecidableEq, Repr

/-- What the `result` port can carry (R23, R36). -/
inductive Result where
  /-- LOWER's result. -/
  | image (w : WriteImage)
  /-- ENCODE's result. -/
  | frame (f : Frame)
  /-- DECODE's result. -/
  | status (st : DeviceStatus)
  /-- The result of TO_REG and of JOIN. -/
  | divisor (n : Divisor)
  /-- FROM_REG's result, a count of 0.1 MHz units. -/
  | tenths (d : Int)
  /-- SPLIT's result. -/
  | parts (u : UpperPart) (l : LowerPart)
deriving DecidableEq, Repr

/-- The sub-cause of `InvalidConfig` (60_exceptions.md R98). -/
inductive ConfigFault where
  /-- `searchStopLevel = 00` (R99). It records no value. -/
  | stopLevelNotAllowed
  /-- A crystal that is not one of the three (R100), with its frequency in Hz. -/
  | crystalUnsupported (x : Nat)
deriving DecidableEq, Repr

/-- The errors of the block with the information each records (R98). -/
inductive CodecError where
  /-- Raised by LOWER, TO_REG and FROM_REG (R99, R100). -/
  | invalidConfig (cause : ConfigFault)
  /-- Raised by LOWER, with the frequency (R101). -/
  | frequencyOutOfBand (f : Rat)
  /-- Raised by TO_REG, with the rounded value (R102). -/
  | divisorOutOfRange (n : Int)
  /-- Raised for the reserved selector, which it records (R103). -/
  | illegalOperation (op : Selector)
deriving DecidableEq, Repr

end Sys2Proof.Machine
end

