-- ==== Sys2Proof/Config.lean ====
section
/-! DEFINITION. The implementation parameters: the fixed ones of 00_scope.md R7, and the values the
open ones of R8 have at reset. -/

namespace Sys2Proof.Config

open Sys2Proof.Machine

/-- `FRAME_BYTES` (R7). -/
def frameBytes : Nat := 5

/-- `DIVISOR_BITS` (R7). -/
def divisorBits : Nat := 14

/-- The largest divisor that fits `DIVISOR_BITS` bits: 16383 (41_pll.md R87). -/
def divisorMax : Int := 2 ^ divisorBits - 1

/-- `UPPER_BITS`: divisor bits 13..8 (R7). -/
def upperBits : Nat := 6

/-- `LOWER_BITS`: divisor bits 7..0 (R7). -/
def lowerBits : Nat := 8

/-- `DIVISOR_SCALE` (R7). -/
def divisorScale : Rat := 4

/-- `IF_OFFSET_HZ` (R7). -/
def ifOffsetHz : Rat := 225000

/-- One MHz in Hz: the `1e6` of the source's formulas (41_pll.md R85). -/
def hzPerMHz : Rat := 1000000

/-- `BAND_MIN_MHZ` = 87.5, inclusive (R7). -/
def bandMinMHz : Rat := 875 / 10

/-- `BAND_MAX_MHZ` = 107.9, inclusive (R7). -/
def bandMaxMHz : Rat := 1079 / 10

/-- `SUPPORTED_CRYSTALS_HZ` (R7). -/
def supportedCrystalsHz : List Nat := [32768, 6500000, 13000000]

/-- `FREQ_RESOLUTION_MHZ` = 0.1, in Hz: the unit FROM_REG counts in (R7; 41_pll.md R88). -/
def freqResolutionHz : Rat := 100000

/-- `DEVICE_ADDRESS`, the transport's parameter on the two-wire bus; no operation of the block
reads it (R7; 20_memory.md R48). -/
def deviceAddress : Nat := 0x60

/-- The default of `INVERSE_TIE_RULE` (R8; 41_pll.md R89). The parameter itself is
`State.inverseTieRule`. -/
def defaultTieRule : TieRule := .halfUp

/-- The value `State.reset` names for the open parameter `INITIAL_CONFIG` (R8; 70 R113). DESIGN
CHOICE, unsafe (log entry 3): the spec gives no field a default, and this is every field at
zero. `State.resetWith` takes the parameter as an argument. -/
def initialConfig : DeviceConfig where
  mute := false
  searchMode := false
  searchDirection := .down
  searchStopLevel := 0
  injectionSide := .low
  forcedMono := false
  muteLeft := false
  muteRight := false
  softwarePort1 := false
  softwarePort2 := false
  softwarePort1Ready := false
  standby := false
  japaneseBand := false
  crystalFrequencyHz := 0
  softMute := false
  highCutControl := false
  stereoNoiseCanceling := false
  deEmphasis75us := false
  stationFrequencyMHz := 0

end Sys2Proof.Config
end

