-- ==== Sys2Proof/Machine/State.lean ====
section
/-! DEFINITION. The machine's state: the value on each port of the block (10_state.md R23) and the
one open parameter the block reads (00_scope.md R8). The block stores nothing between operations
(R20), has no program counter (R21), no flags (R22) and no memory (20_memory.md R40). -/

namespace Sys2Proof.Machine

/-- What `step` can stop with: nothing. An operation of the block ends in a result or in an error on
the `err` port (60_exceptions.md R97), and both are next states (log entry 6). It has no
constructor, so no model path can raise a fault. -/
inductive Fault where
deriving DecidableEq, Repr

/-- Why a request is turned away before the block performs it. `step` raises none of these. -/
inductive Refusal where
  /-- An operation with no meaning in this model. Raised by no arm of `exec`; safe. -/
  | notModelled (mnemonic : String)
  /-- A byte sequence of this length was offered as a frame; a frame has exactly 5 bytes
  (20_memory.md R45). Raised by the caller's boundary, `Frame.ofBytes`; safe. -/
  | notAFrame (length : Nat)
  /-- A caller's program uses a value name that nothing has bound. Raised by `Operand.eval`; safe
  (log entry 10). -/
  | unboundName (name : Nat)
  /-- A caller's program hands an operation a value of a kind its port does not carry (R23). Raised
  by the typed operand reads of Machine/Caller.lean; safe (log entry 10). -/
  | wrongKind
deriving DecidableEq, Repr

/-- The ports of R23, in its order, and the parameter `INVERSE_TIE_RULE`. -/
structure State where
  /-- The operation selector. -/
  op : Selector
  /-- LOWER's operand. -/
  cfgIn : DeviceConfig
  /-- ENCODE's operand. -/
  imgIn : WriteImage
  /-- DECODE's operand. -/
  frameIn : Frame
  /-- TO_REG's frequency in MHz. -/
  freqIn : Rat
  /-- The crystal in Hz of TO_REG and FROM_REG. -/
  xtalIn : Nat
  /-- The divisor operand of FROM_REG and SPLIT. -/
  nIn : Divisor
  /-- JOIN's upper part. -/
  upperIn : UpperPart
  /-- JOIN's lower part. -/
  lowerIn : LowerPart
  /-- The open parameter `INVERSE_TIE_RULE` (R8, R89); no operation writes it (log entry 4). -/
  inverseTieRule : TieRule
  /-- The result of the operation performed, `none` if it ended in an error (R107). -/
  result : Option Result
  /-- The error code, 0 if the operation succeeded (R97, R98). -/
  err : BitVec 3
  /-- The error with its sub-cause and recorded value, `none` if the operation succeeded (R98,
  R107). -/
  errInfo : Option CodecError
deriving DecidableEq, Repr

/-- The write image whose fields are all 0 (R80). -/
def WriteImage.zero : WriteImage where
  mute := 0
  searchMode := 0
  upperFreq := 0
  lowerFreq := 0
  searchDirection := 0
  searchStopLevel := 0
  injectionSide := 0
  forcedMono := 0
  muteRight := 0
  muteLeft := 0
  softwarePort1 := 0
  softwarePort2 := 0
  standby := 0
  japaneseBand := 0
  xtalSelect := 0
  softMute := 0
  highCutControl := 0
  stereoNoiseCanceling := 0
  softwarePort1Ready := 0
  pllRefSelect := 0
  deEmphasis75us := 0

/-- The frame `[00 00 00 00 00]`. -/
def Frame.zero : Frame := ⟨0, 0, 0, 0, 0⟩

/-- The machine after reset, for any `INITIAL_CONFIG` `c` on `cfg_in` (70 R113). The spec gives the
ports no reset value (R37, R112): the input ports are zero (DESIGN CHOICE, unsafe, log entry 2),
and the outputs are what ENCODE of the zero image drives (DESIGN CHOICE, log entry 5), since after reset
"each output is a function of the inputs of the current operation alone" (R112). -/
def State.resetWith (c : DeviceConfig) : State where
  op := 0
  cfgIn := c
  imgIn := WriteImage.zero
  frameIn := Frame.zero
  freqIn := 0
  xtalIn := 0
  nIn := 0
  upperIn := 0
  lowerIn := 0
  inverseTieRule := Config.defaultTieRule
  result := some (.frame Frame.zero)
  err := 0
  errInfo := none

/-- The machine right after reset: `State.resetWith` at the value log entry 3 names for
`INITIAL_CONFIG`. -/
def State.reset : State :=
  State.resetWith Config.initialConfig

end Sys2Proof.Machine
end

