-- ==== Sys2Proof/Machine/Operands.lean ====
section
/-! DEFINITION. The operand forms: bits and booleans, the codes of the two-valued and stop-level
fields, frames as byte sequences, divisor assembly, the crystal and band predicates, and the read
of the selector port. -/

namespace Sys2Proof.Machine

/-- `bit(b)` of 00_scope.md R11: `true` is 1 (30_encoding.md R64). -/
def bit (b : Bool) : Bit :=
  if b then 1 else 0

/-- `bool(x)` of R11: true if x = 1 (R64). -/
def bool (x : Bit) : Bool :=
  x == 1

/-- A 1-bit field placed at bit `k` of a byte: `x << k` (R11). -/
def atBit (x : Bit) (k : Nat) : Byte :=
  x.setWidth 8 <<< k

/-- Bit `k` of a byte, `v[k]` (R11). -/
def bitOf (v : Byte) (k : Nat) : Bit :=
  v.extractLsb' k 1

/-- The code of `searchDirection` (SUD): `Up` is 1, `Down` is 0 (R65). -/
def SearchDirection.code (d : SearchDirection) : Bit :=
  match d with
  | .up => 1
  | .down => 0

/-- The code of `injectionSide`: `High` is 1, `Low` is 0 (R67). -/
def InjectionSide.code (i : InjectionSide) : Bit :=
  match i with
  | .high => 1
  | .low => 0

/-- The 2-bit code of a named search stop level (R25, R66); code 00 has no name. -/
def StopLevel.code (l : StopLevel) : BitVec 2 :=
  match l with
  | .low => 0b01
  | .mid => 0b10
  | .high => 0b11

/-- `x in {32768, 6500000, 13000000}` (R26; 60_exceptions.md R100). -/
def crystalSupported (x : Nat) : Bool :=
  Config.supportedCrystalsHz.contains x

/-- `clockSelect(x) = (xtalSelect, pllRefSelect)` (R68). It is used only for the three supported
crystals; of those, only 13 MHz selects neither bit. -/
def clockSelect (x : Nat) : Bit × Bit :=
  if x = 32768 then (1, 0) else if x = 6500000 then (0, 1) else (0, 0)

/-- `inBand(f) = (87.5 <= f) and (f <= 107.9)` on the exact value (40_codec.md R77). -/
def inBand (f : Rat) : Bool :=
  decide (Config.bandMinMHz ≤ f) && decide (f ≤ Config.bandMaxMHz)

/-- `(n[13:8], n[7:0])`: the upper 6 and lower 8 bits of a divisor (R63). -/
def splitDivisor (n : Divisor) : UpperPart × LowerPart :=
  (n.extractLsb' 8 6, n.extractLsb' 0 8)

/-- `upper ++ lower = (zext_14(upper) << 8) | zext_14(lower)` (R63). -/
def joinDivisor (u : UpperPart) (l : LowerPart) : Divisor :=
  u.setWidth 14 <<< 8 ||| l.setWidth 14

/-- A frame as the byte sequence of the transaction, `B[0]` first (20_memory.md R41, R42). -/
def Frame.toBytes (f : Frame) : List Byte :=
  [f.b0, f.b1, f.b2, f.b3, f.b4]

/-- The boundary of R45: a byte sequence is a frame if it has exactly 5 bytes, and is refused
otherwise, before DECODE sees it (92 D26). -/
def Frame.ofBytes (bytes : List Byte) : Except Refusal Frame :=
  match bytes with
  | [b0, b1, b2, b3, b4] => .ok ⟨b0, b1, b2, b3, b4⟩
  | other => .error (.notAFrame other.length)

/-- The selector the block performs: the value on the `op` port (R69). -/
def State.selector (s : State) : Selector :=
  s.op

end Sys2Proof.Machine
end

