-- ==== Sys2Proof/Machine/Flags.lean ====
section
/-! DEFINITION. The status an operation reports. The block has no flags and no condition codes
(10_state.md R22): the error code on the `err` port is all there is (60_exceptions.md R97, R98). -/

namespace Sys2Proof.Machine

/-- The `err` code of an error (R98). Code 0 is no error, codes 5 to 7 are never produced. -/
def CodecError.code (e : CodecError) : BitVec 3 :=
  match e with
  | .invalidConfig _ => 1
  | .frequencyOutOfBand _ => 2
  | .divisorOutOfRange _ => 3
  | .illegalOperation _ => 4

end Sys2Proof.Machine
end

