-- ==== Sys2Proof/Machine/Ops.lean ====
section
/-! DEFINITION. How an operation ends (60_exceptions.md R97, R107): the result driven on success,
the error driven otherwise. Reporting an error is the block's only form of taking an exception:
nothing is saved, no mode changes and no vector is taken (R97). There is no return from one
(R108). The block has no memory (20_memory.md R40), so there is no operation over it. -/

namespace Sys2Proof.Machine

/-- `Ok(result)`: the result is driven and `err = 0` (R97). -/
def State.succeed (s : State) (r : Result) : State :=
  { s with result := some r, err := 0, errInfo := none }

/-- `Err(code, info)`: the error's code and information are driven and there is no result (R97,
R107). Every input port is as it was. -/
def State.raise (s : State) (e : CodecError) : State :=
  { s with result := none, err := e.code, errInfo := some e }

/-- An operation ends in exactly one of the two ways (R97). -/
def State.finish (s : State) (o : Except CodecError Result) : State :=
  match o with
  | .ok r => s.succeed r
  | .error e => s.raise e

/-- The reserved selector: no operation is performed, no operand is read, and `IllegalOperation`
is reported with the selector (30_encoding.md R71; R103). -/
def execReserved (op : Selector) (s : State) : Host.Outcome State Fault Refusal :=
  .next (s.raise (.illegalOperation op))

end Sys2Proof.Machine
end

