-- ==== Sys2Proof/Machine/Rounding.lean ====
section
/-! DEFINITION. Rounding an exact rational to the nearest integer (00_scope.md R11, R12): the only
inexact step of the converter. -/

namespace Sys2Proof.Machine

/-- The nearest integer to `q`; an exact half goes by `rule`: to the greater integer (`halfUp`) or
to the even one (`halfEven`) (R11). -/
def roundNearest (rule : TieRule) (q : Rat) : Int :=
  let k := q.floor
  let r := q - k
  if r < 1 / 2 then k
  else if 1 / 2 < r then k + 1
  else
    match rule with
    | .halfUp => k + 1
    | .halfEven => if k % 2 = 0 then k else k + 1

/-- `round_half_even(q)` (R11). -/
def roundHalfEven (q : Rat) : Int :=
  roundNearest .halfEven q

/-- `round_half_up(q)` (R11). -/
def roundHalfUp (q : Rat) : Int :=
  roundNearest .halfUp q

/-- FROM_REG's rounding: by the parameter `INVERSE_TIE_RULE` (41_pll.md R88, R89). -/
def roundInverse (rule : TieRule) (q : Rat) : Int :=
  match rule with
  | .halfUp => roundHalfUp q
  | .halfEven => roundHalfEven q

end Sys2Proof.Machine
end

