-- ==== Sys2Proof/Machine/Pll.lean ====
section
/-! DEFINITION. The PLL divisor converter: TO_REG, FROM_REG, SPLIT and JOIN (41_pll.md). All
arithmetic is exact except the one rounding of each converter operation (R92). -/

namespace Sys2Proof.Machine

/-- `q = 4 * (f * 1000000 + 225000) / x` (R85). -/
def forwardQuotient (f : Rat) (x : Nat) : Rat :=
  Config.divisorScale * (f * Config.hzPerMHz + Config.ifOffsetHz) / x

/-- A rounded divisor as a 14-bit value, or `DivisorOutOfRange` if it does not fit (R87). -/
def fitDivisor (n : Int) : Except CodecError Divisor :=
  if n < 0 ∨ Config.divisorMax < n then .error (.divisorOutOfRange n)
  else .ok (BitVec.ofInt 14 n)

/-- TO_REG's function (R85): the crystal check comes first (60_exceptions.md R106), and the band is
not checked (92 D25). -/
def toRegister (f : Rat) (x : Nat) : Except CodecError Divisor :=
  if crystalSupported x then fitDivisor (roundHalfEven (forwardQuotient f x))
  else .error (.invalidConfig (.crystalUnsupported x))

/-- `q = (n * x / 4 - 225000) / 100000`, in units of 0.1 MHz (R88). -/
def inverseQuotient (n : Divisor) (x : Nat) : Rat :=
  ((n.toNat : Rat) * x / Config.divisorScale - Config.ifOffsetHz) / Config.freqResolutionHz

/-- FROM_REG's function (R88), rounding by `rule` (R89). -/
def fromRegister (rule : TieRule) (n : Divisor) (x : Nat) : Except CodecError Int :=
  if crystalSupported x then .ok (roundInverse rule (inverseQuotient n x))
  else .error (.invalidConfig (.crystalUnsupported x))

/-- TO_REG (R85): reads `freq_in` and `xtal_in`. -/
def execToReg (s : State) : Host.Outcome State Fault Refusal :=
  .next (s.finish ((toRegister s.freqIn s.xtalIn).map Result.divisor))

/-- FROM_REG (R88): reads `n_in` and `xtal_in`. -/
def execFromReg (s : State) : Host.Outcome State Fault Refusal :=
  .next (s.finish ((fromRegister s.inverseTieRule s.nIn s.xtalIn).map Result.tenths))

/-- SPLIT (R90): reads `n_in`; it has no error. -/
def execSplit (s : State) : Host.Outcome State Fault Refusal :=
  .next (s.succeed (.parts (splitDivisor s.nIn).1 (splitDivisor s.nIn).2))

/-- JOIN (R91): reads `upper_in` and `lower_in`; it has no error. -/
def execJoin (s : State) : Host.Outcome State Fault Refusal :=
  .next (s.succeed (.divisor (joinDivisor s.upperIn s.lowerIn)))

end Sys2Proof.Machine
end

