-- ==== Sys2Proof/Machine/Codec.lean ====
section
/-! DEFINITION. The register codec: LOWER, ENCODE and DECODE (40_codec.md). -/

namespace Sys2Proof.Machine

/-- LOWER's validation, in the order of R76, the first failing check reported (60_exceptions.md
R106). -/
def checkConfig (c : DeviceConfig) : Except CodecError Unit :=
  if c.searchStopLevel = 0 then .error (.invalidConfig .stopLevelNotAllowed)
  else if !crystalSupported c.crystalFrequencyHz then
    .error (.invalidConfig (.crystalUnsupported c.crystalFrequencyHz))
  else if !inBand c.stationFrequencyMHz then .error (.frequencyOutOfBand c.stationFrequencyMHz)
  else .ok ()

/-- The write image of a config whose divisor is `n` (R76): every field set from the config. -/
def imageOf (c : DeviceConfig) (n : Divisor) : WriteImage where
  mute := bit c.mute
  searchMode := bit c.searchMode
  upperFreq := (splitDivisor n).1
  lowerFreq := (splitDivisor n).2
  searchDirection := c.searchDirection.code
  searchStopLevel := c.searchStopLevel
  injectionSide := c.injectionSide.code
  forcedMono := bit c.forcedMono
  muteRight := bit c.muteRight
  muteLeft := bit c.muteLeft
  softwarePort1 := bit c.softwarePort1
  softwarePort2 := bit c.softwarePort2
  standby := bit c.standby
  japaneseBand := bit c.japaneseBand
  xtalSelect := (clockSelect c.crystalFrequencyHz).1
  softMute := bit c.softMute
  highCutControl := bit c.highCutControl
  stereoNoiseCanceling := bit c.stereoNoiseCanceling
  softwarePort1Ready := bit c.softwarePort1Ready
  pllRefSelect := (clockSelect c.crystalFrequencyHz).2
  deEmphasis75us := bit c.deEmphasis75us

/-- LOWER's function (R76): all or nothing (R78). The divisor is TO_REG's. -/
def lowerConfig (c : DeviceConfig) : Except CodecError WriteImage :=
  match checkConfig c with
  | .error e => .error e
  | .ok () =>
    match toRegister c.stationFrequencyMHz c.crystalFrequencyHz with
    | .error e => .error e
    | .ok n => .ok (imageOf c n)

/-- ENCODE's function (R79): the five bytes of 30_encoding.md R52 to R56. -/
def encodeFrame (w : WriteImage) : Frame where
  b0 := atBit w.mute 7 ||| atBit w.searchMode 6 ||| w.upperFreq.setWidth 8
  b1 := w.lowerFreq
  b2 := atBit w.searchDirection 7 ||| w.searchStopLevel.setWidth 8 <<< 5 |||
    atBit w.injectionSide 4 ||| atBit w.forcedMono 3 ||| atBit w.muteRight 2 |||
    atBit w.muteLeft 1 ||| atBit w.softwarePort1 0
  b3 := atBit w.softwarePort2 7 ||| atBit w.standby 6 ||| atBit w.japaneseBand 5 |||
    atBit w.xtalSelect 4 ||| atBit w.softMute 3 ||| atBit w.highCutControl 2 |||
    atBit w.stereoNoiseCanceling 1 ||| atBit w.softwarePort1Ready 0
  b4 := atBit w.pllRefSelect 7 ||| atBit w.deEmphasis75us 6

/-- DECODE's function (R81): the fields of 30_encoding.md R58 to R62. `B[3][0]` and `B[4]` are not
read (R72). -/
def decodeFrame (b : Frame) : DeviceStatus where
  ready := bool (bitOf b.b0 7)
  bandLimitReached := bool (bitOf b.b0 6)
  frequencyRegister := joinDivisor (b.b0.extractLsb' 0 6) b.b1
  stereo := bool (bitOf b.b2 7)
  ifCounter := b.b2.extractLsb' 0 7
  signalLevel := b.b3.extractLsb' 4 4
  chipId := b.b3.extractLsb' 1 3

/-- LOWER (R76): reads `cfg_in`. -/
def execLower (s : State) : Host.Outcome State Fault Refusal :=
  .next (s.finish ((lowerConfig s.cfgIn).map Result.image))

/-- ENCODE (R79): reads `img_in`; it has no error. -/
def execEncode (s : State) : Host.Outcome State Fault Refusal :=
  .next (s.succeed (.frame (encodeFrame s.imgIn)))

/-- DECODE (R81): reads `frame_in`; it has no error. -/
def execDecode (s : State) : Host.Outcome State Fault Refusal :=
  .next (s.succeed (.status (decodeFrame s.frameIn)))

end Sys2Proof.Machine
end

