-- ==== Sys2Proof/Machine/Dispatch.lean ====
section
/-! DEFINITION. The meaning of each operation (30_encoding.md R70): one arm per constructor. -/

namespace Sys2Proof.Machine

/-- The block performs the operation `i` on the values its ports hold. -/
def exec (i : Instr) (s : State) : Host.Outcome State Fault Refusal :=
  match i with
  | .encode => Sys2Proof.Machine.execEncode s
  | .decode => Sys2Proof.Machine.execDecode s
  | .lower => Sys2Proof.Machine.execLower s
  | .toReg => Sys2Proof.Machine.execToReg s
  | .fromReg => Sys2Proof.Machine.execFromReg s
  | .split => Sys2Proof.Machine.execSplit s
  | .join => Sys2Proof.Machine.execJoin s

end Sys2Proof.Machine
end

