-- ==== Sys2Proof/Machine/Step.lean ====
section
/-! DEFINITION. One step: the block performs the operation the selector names (10_state.md R21) and
drives its outputs, in one indivisible step of unspecified duration (70 R121). -/

namespace Sys2Proof.Machine

/-- One operation, selected by the `op` port (30_encoding.md R69). The reserved selector reports
`IllegalOperation` (R71). -/
def step (s : State) : Host.Outcome State Fault Refusal :=
  match decode s.selector with
  | .ok i => exec i s
  | .error (.reservedSelector op) => execReserved op s

/-- `s` with the selector of a table word on the `op` port, so that the next step performs that
operation. Nothing else is changed: the block fetches nothing (10_state.md R21; log entry 8). -/
def State.withFetchWord (s : State) (nbits w : Nat) : State :=
  { s with op := selectorOfWord nbits w }

end Sys2Proof.Machine
end

