-- ==== Sys2Proof/Machine/Caller.lean ====
section
/-! DEFINITION. The caller's side, outside the block: presenting a request on the ports (10_state.md
R36), programs of operations and the pseudo-operations (30_encoding.md R74, R75), the rule that an
error ends a program (60_exceptions.md R108), and the config transitions the spec tabulates for
test programs (70 R113). The block keeps none of it (10_state.md R20, R35). -/

namespace Sys2Proof.Machine

/-- One request: an operation with its operands, or the reserved selector (R36, R71). -/
inductive Request where
  | encode (w : WriteImage)
  | decode (f : Frame)
  | lower (c : DeviceConfig)
  | toReg (f : Rat) (x : Nat)
  | fromReg (n : Divisor) (x : Nat)
  | split (n : Divisor)
  | join (u : UpperPart) (l : LowerPart)
  | reserved
deriving DecidableEq, Repr

/-- The caller presents a request: it drives `op` and exactly the ports the operation reads (R36).
The outputs follow when the block performs the operation. -/
def State.present (s : State) (r : Request) : State :=
  match r with
  | .encode w => { s with op := encode .encode, imgIn := w }
  | .decode f => { s with op := encode .decode, frameIn := f }
  | .lower c => { s with op := encode .lower, cfgIn := c }
  | .toReg f x => { s with op := encode .toReg, freqIn := f, xtalIn := x }
  | .fromReg n x => { s with op := encode .fromReg, nIn := n, xtalIn := x }
  | .split n => { s with op := encode .split, nIn := n }
  | .join u l => { s with op := encode .join, upperIn := u, lowerIn := l }
  | .reserved => { s with op := 0b111 }

/-- What a caller's value name can stand for (R74). -/
inductive Value where
  | config (c : DeviceConfig)
  | image (w : WriteImage)
  | frame (f : Frame)
  | status (st : DeviceStatus)
  | divisor (n : Divisor)
  | upper (u : UpperPart)
  | lower (l : LowerPart)
  | mhz (f : Rat)
  | hertz (x : Nat)
  | tenths (d : Int)
deriving DecidableEq, Repr

/-- The caller's named values, the newest first. A name is a number (log entry 10). -/
abbrev Env := List (Nat × Value)

/-- An operand of R74's syntax. -/
inductive Operand where
  /-- A literal value. -/
  | lit (v : Value)
  /-- A frame literal `[b0 b1 b2 b3 b4]`; a sequence of another length is no frame (R45). -/
  | bytes (bs : List Byte)
  /-- A value name. -/
  | var (name : Nat)
  /-- `st.frequencyRegister`, the one field of a status an operation reads (10_state.md R32). -/
  | freqReg (st : Nat)
deriving DecidableEq, Repr

/-- The value of an operand. -/
def Operand.eval (env : Env) (o : Operand) : Except Refusal Value :=
  match o with
  | .lit v => .ok v
  | .bytes bs => (Frame.ofBytes bs).map Value.frame
  | .var name =>
    match env.lookup name with
    | some v => .ok v
    | none => .error (.unboundName name)
  | .freqReg st =>
    match env.lookup st with
    | some (.status v) => .ok (.divisor v.frequencyRegister)
    | some _ => .error .wrongKind
    | none => .error (.unboundName st)

/-- A value as a port of one type carries it (R23): `pick` reads it, or it is of the wrong kind. -/
def Operand.read {α : Type} (pick : Value → Option α) (env : Env) (o : Operand) :
    Except Refusal α :=
  match o.eval env with
  | .error r => .error r
  | .ok v =>
    match pick v with
    | some a => .ok a
    | none => .error .wrongKind

/-- The config a value is, if it is one. -/
def Value.config? (v : Value) : Option DeviceConfig :=
  match v with
  | .config c => some c
  | _ => none

/-- The write image a value is, if it is one. -/
def Value.image? (v : Value) : Option WriteImage :=
  match v with
  | .image w => some w
  | _ => none

/-- The frame a value is, if it is one. -/
def Value.frame? (v : Value) : Option Frame :=
  match v with
  | .frame f => some f
  | _ => none

/-- The divisor a value is, if it is one. -/
def Value.divisor? (v : Value) : Option Divisor :=
  match v with
  | .divisor n => some n
  | _ => none

/-- The upper part a value is, if it is one. -/
def Value.upper? (v : Value) : Option UpperPart :=
  match v with
  | .upper u => some u
  | _ => none

/-- The lower part a value is, if it is one. -/
def Value.lower? (v : Value) : Option LowerPart :=
  match v with
  | .lower l => some l
  | _ => none

/-- The frequency in MHz a value is, if it is one. -/
def Value.mhz? (v : Value) : Option Rat :=
  match v with
  | .mhz f => some f
  | _ => none

/-- The crystal in Hz a value is, if it is one. -/
def Value.hertz? (v : Value) : Option Nat :=
  match v with
  | .hertz x => some x
  | _ => none

/-- The count of 0.1 MHz units a value is, if it is one. -/
def Value.tenths? (v : Value) : Option Int :=
  match v with
  | .tenths d => some d
  | _ => none

/-- One line of a program (R74): the names on the left of `<-` come first, then the operands. -/
inductive Stmt where
  /-- `ENCODE frm <- img` -/
  | encode (frm : Nat) (img : Operand)
  /-- `DECODE st <- frm` -/
  | decode (st : Nat) (frm : Operand)
  /-- `LOWER img <- cfg` -/
  | lower (img : Nat) (cfg : Operand)
  /-- `TO_REG n <- f, x` -/
  | toReg (n : Nat) (f x : Operand)
  /-- `FROM_REG d <- n, x` -/
  | fromReg (d : Nat) (n x : Operand)
  /-- `SPLIT u, l <- n` -/
  | split (u l : Nat) (n : Operand)
  /-- `JOIN n <- u, l` -/
  | join (n : Nat) (u l : Operand)
  /-- The reserved selector 111, which binds nothing (95_test_vectors.md P6). -/
  | reserved
deriving DecidableEq, Repr

/-- The request a line presents, its operands read from the caller's named values. -/
def Stmt.request (env : Env) (st : Stmt) : Except Refusal Request :=
  match st with
  | .encode _ img => (img.read Value.image? env).map Request.encode
  | .decode _ frm => (frm.read Value.frame? env).map Request.decode
  | .lower _ cfg => (cfg.read Value.config? env).map Request.lower
  | .toReg _ f x => do
    let fv ← f.read Value.mhz? env
    let xv ← x.read Value.hertz? env
    return .toReg fv xv
  | .fromReg _ n x => do
    let nv ← n.read Value.divisor? env
    let xv ← x.read Value.hertz? env
    return .fromReg nv xv
  | .split _ _ n => (n.read Value.divisor? env).map Request.split
  | .join _ u l => do
    let uv ← u.read Value.upper? env
    let lv ← l.read Value.lower? env
    return .join uv lv
  | .reserved => .ok .reserved

/-- The names a line binds, in the order of its results (R74). -/
def Stmt.names (st : Stmt) : List Nat :=
  match st with
  | .encode frm _ => [frm]
  | .decode s _ => [s]
  | .lower img _ => [img]
  | .toReg n _ _ => [n]
  | .fromReg d _ _ => [d]
  | .split u l _ => [u, l]
  | .join n _ _ => [n]
  | .reserved => []

/-- A result as the values the caller can name. -/
def Result.values (r : Result) : List Value :=
  match r with
  | .image w => [.image w]
  | .frame f => [.frame f]
  | .status st => [.status st]
  | .divisor n => [.divisor n]
  | .tenths d => [.tenths d]
  | .parts u l => [.upper u, .lower l]

/-- The caller: the block it drives and the values it holds by name (R35, R74). -/
structure Caller where
  block : State
  env : Env
deriving DecidableEq, Repr

/-- How a program ends (R108). -/
inductive ProgramOutcome where
  /-- Every line was performed. -/
  | done (c : Caller)
  /-- A line ended in an error, which ends the program (R108); the caller keeps the values it
  holds (95_test_vectors.md P6). -/
  | ended (e : CodecError) (c : Caller)
  /-- An operand could not be presented; the block did nothing with that line. -/
  | refused (r : Refusal) (c : Caller)
deriving DecidableEq, Repr

/-- The caller performs one line: it presents the request, the block takes one step, and the caller
names the results. -/
def Caller.perform (c : Caller) (st : Stmt) : ProgramOutcome :=
  match st.request c.env with
  | .error r => .refused r c
  | .ok req =>
    match step (c.block.present req) with
    | .next s =>
      match s.errInfo with
      | some e => .ended e { c with block := s }
      | none =>
        .done { block := s, env := st.names.zip ((s.result.map Result.values).getD []) ++ c.env }
    | .fault f => nomatch f
    | .refused r => .refused r c

/-- A step of a program: a line for the block, or the caller's own recomputation of a config's
station frequency from a count of 0.1 MHz units (95_test_vectors.md P4). -/
inductive ProgramStep where
  | op (st : Stmt)
  | retune (dst : Nat) (cfg d : Operand)
deriving DecidableEq, Repr

/-- One step of a program. -/
def Caller.advance (c : Caller) (p : ProgramStep) : ProgramOutcome :=
  match p with
  | .op st => c.perform st
  | .retune dst cfg d =>
    match cfg.read Value.config? c.env, d.read Value.tenths? c.env with
    | .ok v, .ok t =>
      .done { c with env := (dst, .config { v with stationFrequencyMHz := t / 10 }) :: c.env }
    | .error r, _ => .refused r c
    | .ok _, .error r => .refused r c

/-- A program of operations: the lines in order; an error ends it, and no later line runs (R49,
R108). -/
def runProgram (prog : List ProgramStep) (c : Caller) : ProgramOutcome :=
  match prog with
  | [] => .done c
  | p :: rest =>
    match c.advance p with
    | .done c' => runProgram rest c'
    | .ended e c' => .ended e c'
    | .refused r c' => .refused r c'

/-- The pseudo-operations of R75. `tmp` is the name of the value the expansion passes on. -/
inductive Pseudo where
  /-- `PACK frm <- cfg` -/
  | pack (frm : Nat) (cfg : Operand) (tmp : Nat)
  /-- `FREQ_PAIR u, l <- f, x` -/
  | freqPair (u l : Nat) (f x : Operand) (tmp : Nat)
  /-- `STATUS_FREQ d <- st, x` -/
  | statusFreq (d : Nat) (st : Nat) (x : Operand)
deriving DecidableEq, Repr

/-- The expansion of a pseudo-operation (R75). -/
def Pseudo.expand (p : Pseudo) : List ProgramStep :=
  match p with
  | .pack frm cfg tmp => [.op (.lower tmp cfg), .op (.encode frm (.var tmp))]
  | .freqPair u l f x tmp => [.op (.toReg tmp f x), .op (.split u l (.var tmp))]
  | .statusFreq d st x => [.op (.fromReg d (.freqReg st) x)]

/-- The write transaction a caller hands to the transport: the device address and the frame's
bytes, `B[0]` first (20_memory.md R41, R48). -/
def Frame.writeTransaction (f : Frame) : Nat × List Byte :=
  (Config.deviceAddress, f.toBytes)

/-! The config fields the Controller's actions set (70 R113), for test programs. -/

/-- `powerOn()`. -/
def DeviceConfig.powerOn (c : DeviceConfig) : DeviceConfig :=
  { c with standby := false, mute := false, highCutControl := true, stereoNoiseCanceling := true }

/-- `powerOff()`. -/
def DeviceConfig.powerOff (c : DeviceConfig) : DeviceConfig :=
  { c with standby := true }

/-- The start of `search(direction)`. -/
def DeviceConfig.searchStart (c : DeviceConfig) (direction : SearchDirection) : DeviceConfig :=
  { c with searchMode := true, mute := true, searchDirection := direction }

/-- Search success. -/
def DeviceConfig.searchSucceeded (c : DeviceConfig) : DeviceConfig :=
  { c with searchMode := false, mute := false }

/-- Search failure. -/
def DeviceConfig.searchFailed (c : DeviceConfig) : DeviceConfig :=
  { c with searchMode := false }

/-- `tune(f)`: the frequency is set after the band check; outside the band the config is left as it
was (R101, R107). -/
def DeviceConfig.tune (c : DeviceConfig) (f : Rat) : Except CodecError DeviceConfig :=
  if inBand f then .ok { c with stationFrequencyMHz := f } else .error (.frequencyOutOfBand f)

end Sys2Proof.Machine
end

