-- ==== Sys2Proof/Safety.lean ====
section
/-! DEFINITION. The terms claims are stated in: supported crystals, nearest integers, the outputs of
a state, and what every step leaves on the output ports. -/

namespace Sys2Proof.Machine

/-- One of the three crystals the source calls meaningful (10_state.md R26). -/
abbrev SupportedCrystal (x : Nat) : Prop :=
  x = 32768 ∨ x = 6500000 ∨ x = 13000000

/-- The band, bounds included (40_codec.md R77). -/
abbrev InBand (f : Rat) : Prop :=
  875 / 10 ≤ f ∧ f ≤ 1079 / 10

/-- `n` is the nearest integer to `q`, an exact half going by `rule`: to the greater integer or to
the even one (00_scope.md R11). It describes the rounding and does not compute it. -/
abbrev IsNearest (rule : TieRule) (q : Rat) (n : Int) : Prop :=
  |q - n| ≤ 1 / 2 ∧
    (|q - n| = 1 / 2 →
      match rule with
      | .halfUp => q < n
      | .halfEven => n % 2 = 0)

/-- `s` with a successful operation's outputs (60_exceptions.md R97): every port but the outputs as
in `s`. -/
abbrev State.withResult (s : State) (r : Result) : State :=
  { s with result := some r, err := 0, errInfo := none }

/-- `s` with a failed operation's outputs (R97, R107): the code, the information and no result;
every port but the outputs as in `s`. -/
abbrev State.withError (s : State) (code : BitVec 3) (e : CodecError) : State :=
  { s with result := none, err := code, errInfo := some e }

/-- The outputs of a state. -/
def State.outputs (s : State) : Option Result × BitVec 3 × Option CodecError :=
  (s.result, s.err, s.errInfo)

/-- What a result of the operation with selector `op` can be (R36): its kind, and what its rules
promise of its value. -/
def ResultFits (op : Selector) (r : Result) : Prop :=
  match r with
  | .frame f => op = 0b000 ∧ f.b4.toNat % 64 = 0
  | .status _ => op = 0b001
  | .image w =>
    op = 0b010 ∧ w.searchStopLevel ≠ 0 ∧ ¬(w.xtalSelect = 1 ∧ w.pllRefSelect = 1) ∧
      27 ≤ w.upperFreq.toNat * 256 + w.lowerFreq.toNat ∧
      w.upperFreq.toNat * 256 + w.lowerFreq.toNat ≤ 13199
  | .divisor _ => op = 0b011 ∨ op = 0b110
  | .tenths d => op = 0b100 ∧ -2 ≤ d ∧ d ≤ 532445
  | .parts _ _ => op = 0b101

/-- Which errors the operation with selector `op` can report, and with what information (R98 to
R103). -/
def ErrorFits (op : Selector) (e : CodecError) : Prop :=
  match e with
  | .invalidConfig .stopLevelNotAllowed => op = 0b010
  | .invalidConfig (.crystalUnsupported x) =>
    (op = 0b010 ∨ op = 0b011 ∨ op = 0b100) ∧ ¬SupportedCrystal x
  | .frequencyOutOfBand f => op = 0b010 ∧ ¬InBand f
  | .divisorOutOfRange n => op = 0b011 ∧ (n < 0 ∨ 16383 < n)
  | .illegalOperation o => op = 0b111 ∧ o = op

/-- The outputs fit the operation on the ports: exactly one of a result and a non-zero error code is
there (R107), the code is the error's (R98), and each is one the selected operation can give. -/
def State.OutputsFit (s : State) : Prop :=
  match s.result, s.errInfo with
  | some r, none => s.err = 0 ∧ ResultFits s.op r
  | none, some e => s.err = e.code ∧ s.err ≠ 0 ∧ ErrorFits s.op e
  | _, _ => False

/-- Two states agree on every input port the operation `i` names (R36), and on the parameter
`INVERSE_TIE_RULE` where FROM_REG reads it (R89). -/
def AgreeOnNamedPorts (i : Instr) (s t : State) : Prop :=
  match i with
  | .encode => s.imgIn = t.imgIn
  | .decode => s.frameIn = t.frameIn
  | .lower => s.cfgIn = t.cfgIn
  | .toReg => s.freqIn = t.freqIn ∧ s.xtalIn = t.xtalIn
  | .fromReg => s.nIn = t.nIn ∧ s.xtalIn = t.xtalIn ∧ s.inverseTieRule = t.inverseTieRule
  | .split => s.nIn = t.nIn
  | .join => s.upperIn = t.upperIn ∧ s.lowerIn = t.lowerIn

end Sys2Proof.Machine
end

