-- ==== Sys2Proof/WellFormed.lean ====
section
/-! DEFINITION. The checks on terms a caller writes: an operation (nothing to check, R69), a byte
sequence offered as a frame (R45), and a config offered to LOWER (R25, R26, R27; 70 R115 step 1). -/

namespace Sys2Proof

open Sys2Proof.Machine

/-- Every operation is well formed: the selector carries no operand (30_encoding.md R69). -/
def Instr.wellFormed (i : Instr) : Bool :=
  match i with
  | .encode => true
  | .decode => true
  | .lower => true
  | .toReg => true
  | .fromReg => true
  | .split => true
  | .join => true

/-- A byte sequence is a frame only if it has exactly `FRAME_BYTES` bytes (20_memory.md R45). -/
def frameLengthOk (bytes : List Byte) : Bool :=
  bytes.length == Config.frameBytes

/-- The stop level is one of the three allowed codes (10_state.md R25). -/
def stopLevelOk (c : DeviceConfig) : Bool :=
  c.searchStopLevel != 0

/-- The crystal is one of the three supported ones (10_state.md R26). -/
def crystalOk (c : DeviceConfig) : Bool :=
  Config.supportedCrystalsHz.contains c.crystalFrequencyHz

/-- The station frequency is in the band, bounds included (10_state.md R27). -/
def frequencyOk (c : DeviceConfig) : Bool :=
  decide (Config.bandMinMHz ≤ c.stationFrequencyMHz) &&
    decide (c.stationFrequencyMHz ≤ Config.bandMaxMHz)

/-- The config a caller owes the block before a usable write frame (70 R115 step 1), as far as the
block can check it: that the crystal is the fitted one it cannot. -/
def configWellFormed (c : DeviceConfig) : Bool :=
  stopLevelOk c && crystalOk c && frequencyOk c

end Sys2Proof
end

