-- ==== Sys2Proof/Certificates/Slice0/Obligations.lean ====
section
/-! DEFINITION. The statements for the provers. Each docstring names the rule of spec/ the statement
formalises. The rules' numerals are written out, so that a statement does not read the model's own
constants. -/

open Sys2Proof Sys2Proof.Machine

/-! ### The selector and the step -/

/-- R69: the value of `op` alone selects the operation. A step at a state whose selector decodes to
a well-formed operation is that operation's meaning at that state. -/
def Obligations.StepPerformsSelectedOperation : Prop :=
  ∀ (s : State) (i : Instr), i.wellFormed = true → decode s.op = .ok i → step s = exec i s

/-- R70: the operation map, each selector value written out. -/
def Obligations.SelectorMap : Prop :=
  decode 0b000 = .ok .encode ∧ decode 0b001 = .ok .decode ∧ decode 0b010 = .ok .lower ∧
    decode 0b011 = .ok .toReg ∧ decode 0b100 = .ok .fromReg ∧ decode 0b101 = .ok .split ∧
    decode 0b110 = .ok .join ∧ decode 0b111 = .error (.reservedSelector 0b111)

/-- The selector's decoder and encoder agree in both directions (from R70). -/
def Obligations.SelectorDecodeEncodeAgree : Prop :=
  (∀ i : Instr, i.wellFormed = true → decode (encode i) = .ok i) ∧
    ∀ (op : Selector) (i : Instr), decode op = .ok i → encode i = op

/-- R103: `op = 111` reports `IllegalOperation`, which records op; no operand is read. -/
def Obligations.ReservedSelectorReportsIllegalOperation : Prop :=
  ∀ s : State, s.op = 0b111 → step s = .next (s.withError 4 (.illegalOperation 0b111))

/-- R97: every operation ends in a result with `err = 0`, or in a non-zero code with its
information and no result. Every input port and the parameter are as they were. -/
def Obligations.OperationEndsInResultOrError : Prop :=
  ∀ s : State, ∃ t, step s = .next t ∧
    ((∃ r, t = s.withResult r) ∨ ∃ (code : BitVec 3) (e : CodecError), code ≠ 0 ∧
      t = s.withError code e)

/-- R98: the code of each error, which operation raises it and with what information; a success has
code 0, and codes 5 to 7 are never produced. -/
def Obligations.ErrorCodes : Prop :=
  ∀ s t : State, step s = .next t →
    t.err.toNat ≤ 4 ∧ (t.errInfo = none → t.err = 0) ∧
    (∀ cause, t.errInfo = some (.invalidConfig cause) → t.err = 1 ∧
      match cause with
      | .stopLevelNotAllowed => s.op = 0b010
      | .crystalUnsupported x =>
        (s.op = 0b010 ∧ x = s.cfgIn.crystalFrequencyHz) ∨
          ((s.op = 0b011 ∨ s.op = 0b100) ∧ x = s.xtalIn)) ∧
    (∀ f, t.errInfo = some (.frequencyOutOfBand f) →
      t.err = 2 ∧ s.op = 0b010 ∧ f = s.cfgIn.stationFrequencyMHz) ∧
    (∀ n, t.errInfo = some (.divisorOutOfRange n) → t.err = 3 ∧ s.op = 0b011 ∧
      IsNearest .halfEven (4 * (s.freqIn * 1000000 + 225000) / s.xtalIn) n) ∧
    (∀ op, t.errInfo = some (.illegalOperation op) → t.err = 4 ∧ s.op = 0b111 ∧ op = s.op)

/-! ### ENCODE -/

/-- R52 to R56: the five bytes of a write frame, each as the sum of its fields at their places. It
holds for every image, also one LOWER never produces, and ENCODE always answers a next state. -/
def Obligations.EncodeBytes : Prop :=
  ∀ s : State, ∃ f : Frame, exec .encode s = .next (s.withResult (.frame f)) ∧
    f.b0.toNat = 128 * s.imgIn.mute.toNat + 64 * s.imgIn.searchMode.toNat +
      s.imgIn.upperFreq.toNat ∧
    f.b1 = s.imgIn.lowerFreq ∧
    f.b2.toNat = 128 * s.imgIn.searchDirection.toNat + 32 * s.imgIn.searchStopLevel.toNat +
      16 * s.imgIn.injectionSide.toNat + 8 * s.imgIn.forcedMono.toNat +
      4 * s.imgIn.muteRight.toNat + 2 * s.imgIn.muteLeft.toNat + s.imgIn.softwarePort1.toNat ∧
    f.b3.toNat = 128 * s.imgIn.softwarePort2.toNat + 64 * s.imgIn.standby.toNat +
      32 * s.imgIn.japaneseBand.toNat + 16 * s.imgIn.xtalSelect.toNat +
      8 * s.imgIn.softMute.toNat + 4 * s.imgIn.highCutControl.toNat +
      2 * s.imgIn.stereoNoiseCanceling.toNat + s.imgIn.softwarePort1Ready.toNat ∧
    f.b4.toNat = 128 * s.imgIn.pllRefSelect.toNat + 64 * s.imgIn.deEmphasis75us.toNat

/-- The three images of 40_codec.md's bit layout examples: all fields 0; `mute` alone; `mute`,
`searchMode` and `upperFreq = 0x12`. -/
def Obligations.EncodeSourceExamples : Prop :=
  ∀ s : State,
    (s.imgIn = WriteImage.zero →
      exec .encode s = .next (s.withResult (.frame ⟨0x00, 0x00, 0x00, 0x00, 0x00⟩))) ∧
    (s.imgIn = { WriteImage.zero with mute := 1 } →
      exec .encode s = .next (s.withResult (.frame ⟨0x80, 0x00, 0x00, 0x00, 0x00⟩))) ∧
    (s.imgIn = { WriteImage.zero with mute := 1, searchMode := 1, upperFreq := 0x12 } →
      exec .encode s = .next (s.withResult (.frame ⟨0xD2, 0x00, 0x00, 0x00, 0x00⟩)))

/-- Distinct images give distinct frames (40_codec.md section 2, corner cases of ENCODE). -/
def Obligations.EncodeInjective : Prop :=
  ∀ (s t : State) (f : Frame), exec .encode s = .next (s.withResult (.frame f)) →
    exec .encode t = .next (t.withResult (.frame f)) → s.imgIn = t.imgIn

/-- The frames ENCODE produces are exactly those with zeros in byte 4 bits 5..0 (30_encoding.md
section 2: 34 bits carry fields and 6 are zero). -/
def Obligations.EncodeReachesEveryWriteFrame : Prop :=
  ∀ (s : State) (f : Frame),
    (∃ w : WriteImage, exec .encode { s with imgIn := w } =
      .next (State.withResult { s with imgIn := w } (.frame f))) ↔ f.b4.toNat % 64 = 0

/-! ### DECODE -/

/-- R58 to R62: every field of the status, from the bits its rule names; DECODE always answers a
next state. -/
def Obligations.DecodeFields : Prop :=
  ∀ s : State, ∃ st : DeviceStatus, exec .decode s = .next (s.withResult (.status st)) ∧
    (st.ready = true ↔ 128 ≤ s.frameIn.b0.toNat) ∧
    (st.bandLimitReached = true ↔ s.frameIn.b0.toNat / 64 % 2 = 1) ∧
    st.frequencyRegister.toNat = s.frameIn.b0.toNat % 64 * 256 + s.frameIn.b1.toNat ∧
    (st.stereo = true ↔ 128 ≤ s.frameIn.b2.toNat) ∧
    st.ifCounter.toNat = s.frameIn.b2.toNat % 128 ∧
    st.signalLevel.toNat = s.frameIn.b3.toNat / 16 ∧
    st.chipId.toNat = s.frameIn.b3.toNat / 2 % 8

/-- R33: DECODE's result does not depend on byte 3 bit 0 or on byte 4. -/
def Obligations.DecodeIgnoresUnusedBits : Prop :=
  ∀ s t : State, s.frameIn.b0 = t.frameIn.b0 → s.frameIn.b1 = t.frameIn.b1 →
    s.frameIn.b2 = t.frameIn.b2 → s.frameIn.b3.toNat / 2 = t.frameIn.b3.toNat / 2 →
    ∃ st : DeviceStatus, exec .decode s = .next (s.withResult (.status st)) ∧
      exec .decode t = .next (t.withResult (.status st))

/-- Each status comes from exactly one frame for each value of the nine ignored bits, so from
exactly 2^9 frames (40_codec.md section 3: the 31 bits DECODE reads decide the 31 status bits one to
one). -/
def Obligations.DecodeOneFramePerIgnoredBits : Prop :=
  ∀ (s : State) (st : DeviceStatus) (b3bit0 : Bool) (b4 : Byte), ∃! f : Frame,
    f.b3.getLsbD 0 = b3bit0 ∧ f.b4 = b4 ∧
      exec .decode { s with frameIn := f } =
        .next (State.withResult { s with frameIn := f } (.status st))

/-! ### LOWER -/

/-- R76: LOWER reports the first check that fails, in the order stop level, crystal, band; otherwise
it produces the image with every field set from the config, the divisor being the nearest integer
to the forward quotient. -/
def Obligations.LowerMeaning : Prop :=
  ∀ s : State,
    (s.cfgIn.searchStopLevel = 0 →
      exec .lower s = .next (s.withError 1 (.invalidConfig .stopLevelNotAllowed))) ∧
    (s.cfgIn.searchStopLevel ≠ 0 → ¬SupportedCrystal s.cfgIn.crystalFrequencyHz →
      exec .lower s = .next (s.withError 1
        (.invalidConfig (.crystalUnsupported s.cfgIn.crystalFrequencyHz)))) ∧
    (s.cfgIn.searchStopLevel ≠ 0 → SupportedCrystal s.cfgIn.crystalFrequencyHz →
      ¬InBand s.cfgIn.stationFrequencyMHz →
      exec .lower s = .next (s.withError 2
        (.frequencyOutOfBand s.cfgIn.stationFrequencyMHz))) ∧
    (s.cfgIn.searchStopLevel ≠ 0 → SupportedCrystal s.cfgIn.crystalFrequencyHz →
      InBand s.cfgIn.stationFrequencyMHz →
      ∃ w : WriteImage, exec .lower s = .next (s.withResult (.image w)) ∧
        IsNearest .halfEven
          (4 * (s.cfgIn.stationFrequencyMHz * 1000000 + 225000) / s.cfgIn.crystalFrequencyHz)
          (w.upperFreq.toNat * 256 + w.lowerFreq.toNat : Nat) ∧
        w.mute.toNat = s.cfgIn.mute.toNat ∧
        w.searchMode.toNat = s.cfgIn.searchMode.toNat ∧
        (w.searchDirection = 1 ↔ s.cfgIn.searchDirection = .up) ∧
        w.searchStopLevel = s.cfgIn.searchStopLevel ∧
        (w.injectionSide = 1 ↔ s.cfgIn.injectionSide = .high) ∧
        w.forcedMono.toNat = s.cfgIn.forcedMono.toNat ∧
        w.muteRight.toNat = s.cfgIn.muteRight.toNat ∧
        w.muteLeft.toNat = s.cfgIn.muteLeft.toNat ∧
        w.softwarePort1.toNat = s.cfgIn.softwarePort1.toNat ∧
        w.softwarePort2.toNat = s.cfgIn.softwarePort2.toNat ∧
        w.standby.toNat = s.cfgIn.standby.toNat ∧
        w.japaneseBand.toNat = s.cfgIn.japaneseBand.toNat ∧
        (w.xtalSelect = 1 ↔ s.cfgIn.crystalFrequencyHz = 32768) ∧
        w.softMute.toNat = s.cfgIn.softMute.toNat ∧
        w.highCutControl.toNat = s.cfgIn.highCutControl.toNat ∧
        w.stereoNoiseCanceling.toNat = s.cfgIn.stereoNoiseCanceling.toNat ∧
        w.softwarePort1Ready.toNat = s.cfgIn.softwarePort1Ready.toNat ∧
        (w.pllRefSelect = 1 ↔ s.cfgIn.crystalFrequencyHz = 6500000) ∧
        w.deEmphasis75us.toNat = s.cfgIn.deEmphasis75us.toNat)

/-- LOWER produces an image exactly for the well-formed configs: the caller's checks before a usable
write frame (70_reset_and_hazards.md section 2) are the ones LOWER makes, and an in-band config
never meets `DivisorOutOfRange`. -/
def Obligations.LowerAcceptsExactlyWellFormedConfigs : Prop :=
  ∀ s : State, (∃ w : WriteImage, exec .lower s = .next (s.withResult (.image w))) ↔
    configWellFormed s.cfgIn = true

/-- R100: LOWER (past its stop level check), TO_REG and FROM_REG refuse any crystal but the three,
and the error records it. -/
def Obligations.UnsupportedCrystalRefused : Prop :=
  (∀ s : State, s.cfgIn.searchStopLevel ≠ 0 → ¬SupportedCrystal s.cfgIn.crystalFrequencyHz →
    exec .lower s = .next (s.withError 1
      (.invalidConfig (.crystalUnsupported s.cfgIn.crystalFrequencyHz)))) ∧
  ∀ s : State, ¬SupportedCrystal s.xtalIn →
    exec .toReg s = .next (s.withError 1 (.invalidConfig (.crystalUnsupported s.xtalIn))) ∧
    exec .fromReg s = .next (s.withError 1 (.invalidConfig (.crystalUnsupported s.xtalIn)))

/-! ### TO_REG -/

/-- The rounding functions give the nearest integer by their tie rule, and nothing else (00_scope.md
section 4): TO_REG's half to even, half up, and FROM_REG's by `INVERSE_TIE_RULE`. There is exactly
one such integer, so the statements about nearest integers speak of one value each. -/
def Obligations.RoundingGivesUniqueNearestInteger : Prop :=
  (∀ (rule : TieRule) (q : Rat) (n : Int), roundNearest rule q = n ↔ IsNearest rule q n) ∧
    (∀ (q : Rat) (n : Int), roundHalfEven q = n ↔ IsNearest .halfEven q n) ∧
    (∀ (q : Rat) (n : Int), roundHalfUp q = n ↔ IsNearest .halfUp q n) ∧
    (∀ (rule : TieRule) (q : Rat) (n : Int), roundInverse rule q = n ↔ IsNearest rule q n) ∧
    ∀ (rule : TieRule) (q : Rat), ∃! n : Int, IsNearest rule q n

/-- R85, R87: for an unsupported crystal, `CrystalUnsupported`; else the nearest integer, half to
even, to the exact quotient is the divisor if it fits 14 bits, and is reported by
`DivisorOutOfRange` if it does not. The band is not checked. -/
def Obligations.ToRegMeaning : Prop :=
  ∀ s : State,
    (¬SupportedCrystal s.xtalIn →
      exec .toReg s = .next (s.withError 1 (.invalidConfig (.crystalUnsupported s.xtalIn)))) ∧
    (SupportedCrystal s.xtalIn → ∀ n : Int,
      IsNearest .halfEven (4 * (s.freqIn * 1000000 + 225000) / s.xtalIn) n →
      (∀ N : Divisor, n = (N.toNat : Int) →
        exec .toReg s = .next (s.withResult (.divisor N))) ∧
      (n < 0 ∨ 16383 < n →
        exec .toReg s = .next (s.withError 3 (.divisorOutOfRange n))))

/-- TO_REG gives a divisor exactly from the frequency -0.225 - x/8000000 MHz up to, and not
including, the one whose quotient is 16383.5 (41_pll.md section 1, corner cases of TO_REG). -/
def Obligations.ToRegDomain : Prop :=
  ∀ s : State, SupportedCrystal s.xtalIn →
    ((∃ N : Divisor, exec .toReg s = .next (s.withResult (.divisor N))) ↔
      -(225 / 1000) - (s.xtalIn : Rat) / 8000000 ≤ s.freqIn ∧
        4 * (s.freqIn * 1000000 + 225000) / s.xtalIn < 163835 / 10)

/-- For one crystal, TO_REG is non-decreasing in the frequency (41_pll.md section 4,
"Monotonicity"). -/
def Obligations.ToRegMonotone : Prop :=
  ∀ (s t : State) (N M : Divisor), s.xtalIn = t.xtalIn → s.freqIn ≤ t.freqIn →
    exec .toReg s = .next (s.withResult (.divisor N)) →
    exec .toReg t = .next (t.withResult (.divisor M)) → N.toNat ≤ M.toNat

/-- With the 32768 Hz crystal, frequencies at least 0.1 MHz apart have different divisors in the
same order, so TO_REG is strictly increasing on the 0.1 MHz grid (41_pll.md section 4,
"Monotonicity"). -/
def Obligations.ToRegStrictOnGrid32768 : Prop :=
  ∀ (s t : State) (N M : Divisor), s.xtalIn = 32768 → t.xtalIn = 32768 →
    s.freqIn + 1 / 10 ≤ t.freqIn →
    exec .toReg s = .next (s.withResult (.divisor N)) →
    exec .toReg t = .next (t.withResult (.divisor M)) → N.toNat < M.toNat

/-- The in-band divisor ranges of 41_pll.md section 4's table, for every rational in the band, with
the values at both band edges. -/
def Obligations.InBandDivisorRanges : Prop :=
  ∀ (s : State) (lo hi : Nat), InBand s.freqIn →
    (s.xtalIn, lo, hi) ∈ [(32768, 10709, 13199), (6500000, 54, 67), (13000000, 27, 33)] →
    ∃ N : Divisor, exec .toReg s = .next (s.withResult (.divisor N)) ∧
      lo ≤ N.toNat ∧ N.toNat ≤ hi ∧ (s.freqIn = 875 / 10 → N.toNat = lo) ∧
      (s.freqIn = 1079 / 10 → N.toNat = hi)

/-! ### FROM_REG -/

/-- R88: for an unsupported crystal, `CrystalUnsupported`; else the nearest integer to the exact
frequency in 0.1 MHz units, an exact half going by `INVERSE_TIE_RULE`, with no other error. -/
def Obligations.FromRegMeaning : Prop :=
  ∀ s : State,
    (¬SupportedCrystal s.xtalIn →
      exec .fromReg s = .next (s.withError 1 (.invalidConfig (.crystalUnsupported s.xtalIn)))) ∧
    (SupportedCrystal s.xtalIn → ∃ d : Int,
      IsNearest s.inverseTieRule (((s.nIn.toNat : Rat) * s.xtalIn / 4 - 225000) / 100000) d ∧
      exec .fromReg s = .next (s.withResult (.tenths d)))

/-- Where the tie rule matters (41_pll.md section 2, "Inverse rounding"): away from the 6.5 MHz
divisors n = 4m + 3 the result is one for both rules, and at those the exact half 65m + 46.5 goes
up, or to the even integer. -/
def Obligations.FromRegTies : Prop :=
  (∀ s : State, SupportedCrystal s.xtalIn → ¬(s.xtalIn = 6500000 ∧ s.nIn.toNat % 4 = 3) →
    ∃ d : Int, ∀ rule : TieRule, exec .fromReg { s with inverseTieRule := rule } =
      .next (State.withResult { s with inverseTieRule := rule } (.tenths d))) ∧
  ∀ (s : State) (m : Nat), s.xtalIn = 6500000 → s.nIn.toNat = 4 * m + 3 →
    exec .fromReg { s with inverseTieRule := .halfUp } =
      .next (State.withResult { s with inverseTieRule := .halfUp } (.tenths (65 * m + 47))) ∧
    exec .fromReg { s with inverseTieRule := .halfEven } =
      .next (State.withResult { s with inverseTieRule := .halfEven }
        (.tenths (if m % 2 = 0 then 65 * m + 46 else 65 * m + 47)))

/-- The inverse law (41_pll.md section 4): converting a frequency to its divisor and back, with the
same crystal, is off by at most x/8000000 + 0.05 MHz. -/
def Obligations.InverseLaw : Prop :=
  ∀ (s : State) (N : Divisor), exec .toReg s = .next (s.withResult (.divisor N)) →
    ∃ d : Int, exec .fromReg { s with nIn := N } =
        .next (State.withResult { s with nIn := N } (.tenths d)) ∧
      |(d : Rat) / 10 - s.freqIn| ≤ (s.xtalIn : Rat) / 8000000 + 5 / 100

/-- With the 32768 Hz crystal the inverse recovers every 0.1 MHz grid frequency that has a divisor
exactly, under either tie rule (41_pll.md section 4, "Inverse law"). -/
def Obligations.InverseExactOnGrid32768 : Prop :=
  ∀ (s : State) (k : Int) (N : Divisor), s.xtalIn = 32768 → s.freqIn = (k : Rat) / 10 →
    exec .toReg s = .next (s.withResult (.divisor N)) →
    exec .fromReg { s with nIn := N } =
      .next (State.withResult { s with nIn := N } (.tenths k))

/-! ### SPLIT and JOIN -/

/-- R90, R91: SPLIT gives the upper 6 and the lower 8 bits; JOIN puts the upper part above the lower
part. Neither has an error. -/
def Obligations.SplitAndJoin : Prop :=
  (∀ s : State, ∃ (u : UpperPart) (l : LowerPart),
    exec .split s = .next (s.withResult (.parts u l)) ∧
      u.toNat = s.nIn.toNat / 256 ∧ l.toNat = s.nIn.toNat % 256) ∧
  ∀ s : State, ∃ N : Divisor, exec .join s = .next (s.withResult (.divisor N)) ∧
    N.toNat = s.upperIn.toNat * 256 + s.lowerIn.toNat

/-- SPLIT and JOIN undo each other (41_pll.md section 3, corner cases of JOIN). -/
def Obligations.SplitJoinInverse : Prop :=
  (∀ (s : State) (u : UpperPart) (l : LowerPart),
    exec .split s = .next (s.withResult (.parts u l)) →
    exec .join { s with upperIn := u, lowerIn := l } =
      .next (State.withResult { s with upperIn := u, lowerIn := l } (.divisor s.nIn))) ∧
  ∀ (s : State) (N : Divisor), exec .join s = .next (s.withResult (.divisor N)) →
    exec .split { s with nIn := N } =
      .next (State.withResult { s with nIn := N } (.parts s.upperIn s.lowerIn))

/-! ### The whole block -/

/-- The codec's round trip (40_codec.md section 4): for every config LOWER accepts, the divisor
DECODE reads back from the encoded image is the image's pair joined, and is TO_REG's divisor of the
config. -/
def Obligations.RoundTripDivisor : Prop :=
  ∀ (s : State) (w : WriteImage), exec .lower s = .next (s.withResult (.image w)) →
    ∃ (f : Frame) (st : DeviceStatus),
      exec .encode { s with imgIn := w } =
        .next (State.withResult { s with imgIn := w } (.frame f)) ∧
      exec .decode { s with frameIn := f } =
        .next (State.withResult { s with frameIn := f } (.status st)) ∧
      st.frequencyRegister.toNat = w.upperFreq.toNat * 256 + w.lowerFreq.toNat ∧
      exec .toReg { s with freqIn := s.cfgIn.stationFrequencyMHz,
                           xtalIn := s.cfgIn.crystalFrequencyHz } =
        .next (State.withResult { s with freqIn := s.cfgIn.stationFrequencyMHz,
                                         xtalIn := s.cfgIn.crystalFrequencyHz }
          (.divisor st.frequencyRegister))

/-- R36: an operation's outputs depend on no port but those it names (FROM_REG also on the
parameter `INVERSE_TIE_RULE`), its result is of the kind its row gives, and on error it writes no
result. -/
def Obligations.OperationReadsAndWrites : Prop :=
  (∀ (i : Instr) (s t s' t' : State), AgreeOnNamedPorts i s t → exec i s = .next s' →
    exec i t = .next t' → s'.outputs = t'.outputs) ∧
  ∀ (i : Instr) (s s' : State), exec i s = .next s' →
    (s'.err ≠ 0 → s'.result = none) ∧
    ∀ r : Result, s'.result = some r →
      match i with
      | .lower => ∃ w, r = .image w
      | .encode => ∃ f, r = .frame f
      | .decode => ∃ st, r = .status st
      | .toReg => ∃ n, r = .divisor n
      | .fromReg => ∃ d, r = .tenths d
      | .split => ∃ u l, r = .parts u l
      | .join => ∃ n, r = .divisor n

/-- Every step leaves outputs that fit the operation on the ports, whatever the state before it
(from R36, R98, R107 and the value ranges of R56, R68, R73, R88, R95): exactly one of a result and a
non-zero code, a result of the operation's kind and in its range, an error the operation can
report. -/
def Obligations.StepLeavesFittingOutputs : Prop :=
  ∀ s t : State, step s = .next t → t.OutputsFit

/-- From a state whose outputs fit, any number of steps leaves outputs that fit. -/
def Obligations.RunKeepsFittingOutputs : Prop :=
  ∀ (k : Nat) (s t : State), s.OutputsFit → Sys2Proof.core.run k s = .next t → t.OutputsFit

/-- After reset the outputs fit, for every `INITIAL_CONFIG`. The reset values of the ports are the
model's choice (log entries 2, 3 and 5). -/
def Obligations.ResetOutputsFit : Prop :=
  State.reset.OutputsFit ∧ ∀ c : DeviceConfig, (State.resetWith c).OutputsFit

/-- After reset, with any `INITIAL_CONFIG`, the tie rule is the default HalfUp (00_scope.md section
3), and no step changes it. That the parameter stands in State is the model's choice (log entry
4). -/
def Obligations.TieRuleDefaultsToHalfUpAndStays : Prop :=
  (∀ c : DeviceConfig, (State.resetWith c).inverseTieRule = .halfUp) ∧
    ∀ s t : State, step s = .next t → t.inverseTieRule = s.inverseTieRule

/-- The block keeps nothing: performing an operation again with the same operands changes nothing
(20_memory.md section 3), and what an earlier operation left on the output ports, an error too, has
no effect (70_reset_and_hazards.md section 1; 60_exceptions.md section 3). -/
def Obligations.StepIdempotentAndMemoryless : Prop :=
  (∀ s t : State, step s = .next t → step t = .next t) ∧
    ∀ (s : State) (r : Option Result) (code : BitVec 3) (e : Option CodecError),
      step { s with result := r, err := code, errInfo := e } = step s

/-! ### The caller -/

/-- R45: a byte sequence is a frame, byte by byte in order, exactly if it has 5 bytes; any other is
refused at the boundary and the block is left as it was. -/
def Obligations.FrameBoundary : Prop :=
  ∀ bs : List Byte,
    (bs.length = 5 → ∃ f : Frame, Frame.ofBytes bs = .ok f ∧ f.toBytes = bs) ∧
    (bs.length ≠ 5 → ∀ (c : Caller) (st : Nat),
      c.perform (.decode st (.bytes bs)) = .refused (.notAFrame bs.length) c)

/-- An error ends the program: its outcome is that error, and no later line runs
(60_exceptions.md section 3). That a program is a list of lines is the model's choice (log entry
10). -/
def Obligations.ErrorEndsProgram : Prop :=
  ∀ (earlier later : List ProgramStep) (p : ProgramStep) (c c' : Caller) (e : CodecError),
    runProgram (earlier ++ [p]) c = .ended e c' →
    runProgram (earlier ++ p :: later) c = .ended e c'

/-- `PACK` is LOWER followed by ENCODE and raises exactly the errors of LOWER (30_encoding.md section
7; 40_codec.md section 4). -/
def Obligations.PackIsEncodeOfLower : Prop :=
  ∀ (b : State) (env : Env) (cfg : DeviceConfig) (frm tmp : Nat),
    (∀ w : WriteImage, exec .lower { b with cfgIn := cfg } =
        .next (State.withResult { b with cfgIn := cfg } (.image w)) →
      ∃ (f : Frame) (c' : Caller),
        exec .encode { b with imgIn := w } =
          .next (State.withResult { b with imgIn := w } (.frame f)) ∧
        runProgram (Pseudo.pack frm (.lit (.config cfg)) tmp).expand ⟨b, env⟩ = .done c' ∧
        c'.env.lookup frm = some (.frame f)) ∧
    (∀ (code : BitVec 3) (e : CodecError), exec .lower { b with cfgIn := cfg } =
        .next (State.withError { b with cfgIn := cfg } code e) →
      ∃ c' : Caller,
        runProgram (Pseudo.pack frm (.lit (.config cfg)) tmp).expand ⟨b, env⟩ = .ended e c' ∧
        c'.env = env)

/-- `FREQ_PAIR` is TO_REG followed by SPLIT and raises exactly the errors of TO_REG (30_encoding.md
section 7). The two names it binds are different. -/
def Obligations.FreqPairIsSplitOfToReg : Prop :=
  ∀ (b : State) (env : Env) (f : Rat) (x : Nat) (u l tmp : Nat), u ≠ l →
    (∀ N : Divisor, exec .toReg { b with freqIn := f, xtalIn := x } =
        .next (State.withResult { b with freqIn := f, xtalIn := x } (.divisor N)) →
      ∃ (up : UpperPart) (low : LowerPart) (c' : Caller),
        runProgram (Pseudo.freqPair u l (.lit (.mhz f)) (.lit (.hertz x)) tmp).expand ⟨b, env⟩ =
          .done c' ∧
        c'.env.lookup u = some (.upper up) ∧ c'.env.lookup l = some (.lower low) ∧
        N.toNat = up.toNat * 256 + low.toNat) ∧
    (∀ (code : BitVec 3) (e : CodecError), exec .toReg { b with freqIn := f, xtalIn := x } =
        .next (State.withError { b with freqIn := f, xtalIn := x } code e) →
      ∃ c' : Caller,
        runProgram (Pseudo.freqPair u l (.lit (.mhz f)) (.lit (.hertz x)) tmp).expand ⟨b, env⟩ =
          .ended e c' ∧ c'.env = env)

/-- `STATUS_FREQ` after DECODE converts the divisor the frame carries, with the crystal the caller
gives, checked or not against the one that produced it (30_encoding.md section 7;
70_reset_and_hazards.md section 3). -/
def Obligations.StatusFreqConvertsDecodedDivisor : Prop :=
  ∀ (c : Caller) (f : Frame) (x st d : Nat), SupportedCrystal x →
    ∃ (t : Int) (c' : Caller),
      runProgram (.op (.decode st (.lit (.frame f))) ::
        (Pseudo.statusFreq d st (.lit (.hertz x))).expand) c = .done c' ∧
      c'.env.lookup d = some (.tenths t) ∧
      IsNearest c.block.inverseTieRule
        ((((f.b0.toNat % 64 * 256 + f.b1.toNat : Nat) : Rat) * x / 4 - 225000) / 100000) t

/-- `tune(f)` of any config: in the band it sets the station frequency and leaves every other field
as it was; outside the band it reports the frequency. A tuned config whose stop level and crystal
are allowed lowers to an image. That `tune` is a function on the config, and that the band check is
made there, is the model's reading (log entry 14, DEDUCED) of 70_reset_and_hazards.md section 1's
table and 60_exceptions.md section 2. -/
def Obligations.TunedConfigLowers : Prop :=
  ∀ (c : DeviceConfig) (f : Rat),
    (¬InBand f → c.tune f = .error (.frequencyOutOfBand f)) ∧
    (InBand f → c.tune f = .ok { c with stationFrequencyMHz := f }) ∧
    (InBand f → c.searchStopLevel ≠ 0 → SupportedCrystal c.crystalFrequencyHz →
      ∀ s : State, s.cfgIn = { c with stationFrequencyMHz := f } →
        ∃ w : WriteImage, exec .lower s = .next (s.withResult (.image w)))
end

