-- ==== Sys2Proof/Laws/State.lean ====
section
/-! SUPPORT. One lemma per field and update of State: what `succeed`, `raise`, `withFetchWord` and
`present` leave in each port. -/

namespace Sys2Proof.Machine

variable (s : State) (r : Result) (e : CodecError) (nbits w : Nat)

@[simp] theorem State.succeed_op : (s.succeed r).op = s.op := rfl
@[simp] theorem State.succeed_cfgIn : (s.succeed r).cfgIn = s.cfgIn := rfl
@[simp] theorem State.succeed_imgIn : (s.succeed r).imgIn = s.imgIn := rfl
@[simp] theorem State.succeed_frameIn : (s.succeed r).frameIn = s.frameIn := rfl
@[simp] theorem State.succeed_freqIn : (s.succeed r).freqIn = s.freqIn := rfl
@[simp] theorem State.succeed_xtalIn : (s.succeed r).xtalIn = s.xtalIn := rfl
@[simp] theorem State.succeed_nIn : (s.succeed r).nIn = s.nIn := rfl
@[simp] theorem State.succeed_upperIn : (s.succeed r).upperIn = s.upperIn := rfl
@[simp] theorem State.succeed_lowerIn : (s.succeed r).lowerIn = s.lowerIn := rfl
@[simp] theorem State.succeed_inverseTieRule :
    (s.succeed r).inverseTieRule = s.inverseTieRule := rfl
@[simp] theorem State.succeed_result : (s.succeed r).result = some r := rfl
@[simp] theorem State.succeed_err : (s.succeed r).err = 0 := rfl
@[simp] theorem State.succeed_errInfo : (s.succeed r).errInfo = none := rfl

@[simp] theorem State.raise_op : (s.raise e).op = s.op := rfl
@[simp] theorem State.raise_cfgIn : (s.raise e).cfgIn = s.cfgIn := rfl
@[simp] theorem State.raise_imgIn : (s.raise e).imgIn = s.imgIn := rfl
@[simp] theorem State.raise_frameIn : (s.raise e).frameIn = s.frameIn := rfl
@[simp] theorem State.raise_freqIn : (s.raise e).freqIn = s.freqIn := rfl
@[simp] theorem State.raise_xtalIn : (s.raise e).xtalIn = s.xtalIn := rfl
@[simp] theorem State.raise_nIn : (s.raise e).nIn = s.nIn := rfl
@[simp] theorem State.raise_upperIn : (s.raise e).upperIn = s.upperIn := rfl
@[simp] theorem State.raise_lowerIn : (s.raise e).lowerIn = s.lowerIn := rfl
@[simp] theorem State.raise_inverseTieRule :
    (s.raise e).inverseTieRule = s.inverseTieRule := rfl
@[simp] theorem State.raise_result : (s.raise e).result = none := rfl
@[simp] theorem State.raise_err : (s.raise e).err = e.code := rfl
@[simp] theorem State.raise_errInfo : (s.raise e).errInfo = some e := rfl

@[simp] theorem State.withFetchWord_op :
    (s.withFetchWord nbits w).op = selectorOfWord nbits w := rfl
@[simp] theorem State.withFetchWord_cfgIn : (s.withFetchWord nbits w).cfgIn = s.cfgIn := rfl
@[simp] theorem State.withFetchWord_imgIn : (s.withFetchWord nbits w).imgIn = s.imgIn := rfl
@[simp] theorem State.withFetchWord_frameIn :
    (s.withFetchWord nbits w).frameIn = s.frameIn := rfl
@[simp] theorem State.withFetchWord_freqIn : (s.withFetchWord nbits w).freqIn = s.freqIn := rfl
@[simp] theorem State.withFetchWord_xtalIn : (s.withFetchWord nbits w).xtalIn = s.xtalIn := rfl
@[simp] theorem State.withFetchWord_nIn : (s.withFetchWord nbits w).nIn = s.nIn := rfl
@[simp] theorem State.withFetchWord_upperIn :
    (s.withFetchWord nbits w).upperIn = s.upperIn := rfl
@[simp] theorem State.withFetchWord_lowerIn :
    (s.withFetchWord nbits w).lowerIn = s.lowerIn := rfl
@[simp] theorem State.withFetchWord_inverseTieRule :
    (s.withFetchWord nbits w).inverseTieRule = s.inverseTieRule := rfl

/-- Presenting a request leaves the parameter and the output ports as they were. -/
@[simp] theorem State.present_inverseTieRule (q : Request) :
    (s.present q).inverseTieRule = s.inverseTieRule := by cases q <;> rfl
@[simp] theorem State.present_result (q : Request) : (s.present q).result = s.result := by
  cases q <;> rfl
@[simp] theorem State.present_err (q : Request) : (s.present q).err = s.err := by
  cases q <;> rfl
@[simp] theorem State.present_errInfo (q : Request) : (s.present q).errInfo = s.errInfo := by
  cases q <;> rfl

end Sys2Proof.Machine
end

