-- ==== Sys2Proof/Laws/Ops.lean ====
section
/-! SUPPORT. What the shared ending of an operation can do, and what each meaning is over it. -/

namespace Sys2Proof.Machine

/-- Every error has a non-zero code. -/
theorem CodecError.code_ne_zero (e : CodecError) : e.code ≠ 0 := by
  cases e <;> simp [CodecError.code]

/-- No error has a code above 4. -/
theorem CodecError.code_le_four (e : CodecError) : e.code.toNat ≤ 4 := by
  cases e <;> simp [CodecError.code]

@[simp] theorem State.finish_ok (s : State) (r : Result) : s.finish (.ok r) = s.succeed r := rfl

@[simp] theorem State.finish_error (s : State) (e : CodecError) :
    s.finish (.error e) = s.raise e := rfl

/-- Everything `finish` can do. -/
theorem State.finish_cases (s : State) (o : Except CodecError Result) :
    (∃ r, o = .ok r ∧ s.finish o = s.withResult r) ∨
      ∃ e, o = .error e ∧ s.finish o = s.withError e.code e := by
  cases o with
  | ok r => exact .inl ⟨r, rfl, rfl⟩
  | error e => exact .inr ⟨e, rfl, rfl⟩

/-- An operation that ends in a result had that result. -/
theorem State.finish_eq_withResult {s : State} {o : Except CodecError Result} {r : Result} :
    s.finish o = s.withResult r ↔ o = .ok r := by
  cases o with
  | ok r' => simp [State.finish, State.succeed]
  | error e => simp [State.finish, State.raise]

/-- An operation that ends in an error had that error, and its code is the error's. -/
theorem State.finish_eq_withError {s : State} {o : Except CodecError Result} {c : BitVec 3}
    {e : CodecError} : s.finish o = s.withError c e ↔ o = .error e ∧ c = e.code := by
  cases o with
  | ok r => simp [State.finish, State.succeed]
  | error e' =>
    simp only [State.finish, State.raise, State.mk.injEq, true_and, Option.some.injEq,
      Except.error.injEq]
    constructor
    · rintro ⟨rfl, rfl⟩; exact ⟨rfl, rfl⟩
    · rintro ⟨rfl, rfl⟩; exact ⟨rfl, rfl⟩

/-- What the operation `i` computes from the ports: the one place where the meanings differ. -/
def outcomeOf (i : Instr) (s : State) : Except CodecError Result :=
  match i with
  | .encode => .ok (.frame (encodeFrame s.imgIn))
  | .decode => .ok (.status (decodeFrame s.frameIn))
  | .lower => (lowerConfig s.cfgIn).map Result.image
  | .toReg => (toRegister s.freqIn s.xtalIn).map Result.divisor
  | .fromReg => (fromRegister s.inverseTieRule s.nIn s.xtalIn).map Result.tenths
  | .split => .ok (.parts (splitDivisor s.nIn).1 (splitDivisor s.nIn).2)
  | .join => .ok (.divisor (joinDivisor s.upperIn s.lowerIn))

/-- Every meaning is `finish` of what the operation computes. -/
theorem exec_eq_finish (i : Instr) (s : State) : exec i s = .next (s.finish (outcomeOf i s)) := by
  cases i <;> rfl

/-- What the block computes for a selector value. -/
def outcomeOfSelector (s : State) : Except CodecError Result :=
  match decode s.selector with
  | .ok i => outcomeOf i s
  | .error (.reservedSelector op) => .error (.illegalOperation op)

/-- A step is `finish` of what the selected operation computes. -/
theorem step_eq_finish (s : State) : step s = .next (s.finish (outcomeOfSelector s)) := by
  unfold step outcomeOfSelector
  cases decode s.selector with
  | ok i => exact exec_eq_finish i s
  | error e => rfl

/-- A mapped outcome is a result exactly if the outcome is. -/
theorem except_map_eq_ok {ε α β : Type} {f : α → β} {o : Except ε α} {b : β} :
    o.map f = .ok b ↔ ∃ a, o = .ok a ∧ f a = b := by
  cases o <;> simp [Except.map]

/-- A mapped outcome is an error exactly if the outcome is. -/
theorem except_map_eq_error {ε α β : Type} {f : α → β} {o : Except ε α} {e : ε} :
    o.map f = .error e ↔ o = .error e := by
  cases o <;> simp [Except.map]

/-- LOWER drives an image exactly if LOWER's function gives it. -/
theorem exec_lower_eq_image_iff {s : State} {w : WriteImage} :
    exec .lower s = .next (s.withResult (.image w)) ↔ lowerConfig s.cfgIn = .ok w := by
  rw [exec_eq_finish, Host.Outcome.next.injEq, State.finish_eq_withResult]
  simp [outcomeOf, except_map_eq_ok]

/-- TO_REG drives a divisor exactly if TO_REG's function gives it. -/
theorem exec_toReg_eq_divisor_iff {s : State} {n : Divisor} :
    exec .toReg s = .next (s.withResult (.divisor n)) ↔ toRegister s.freqIn s.xtalIn = .ok n := by
  rw [exec_eq_finish, Host.Outcome.next.injEq, State.finish_eq_withResult]
  simp [outcomeOf, except_map_eq_ok]

/-- FROM_REG drives a frequency exactly if FROM_REG's function gives it. -/
theorem exec_fromReg_eq_tenths_iff {s : State} {d : Int} :
    exec .fromReg s = .next (s.withResult (.tenths d)) ↔
      fromRegister s.inverseTieRule s.nIn s.xtalIn = .ok d := by
  rw [exec_eq_finish, Host.Outcome.next.injEq, State.finish_eq_withResult]
  simp [outcomeOf, except_map_eq_ok]

/-- LOWER reports an error exactly if LOWER's function gives it. -/
theorem exec_lower_eq_error_iff {s : State} {code : BitVec 3} {e : CodecError} :
    exec .lower s = .next (s.withError code e) ↔
      lowerConfig s.cfgIn = .error e ∧ code = e.code := by
  rw [exec_eq_finish, Host.Outcome.next.injEq, State.finish_eq_withError]
  simp [outcomeOf, except_map_eq_error]

/-- TO_REG reports an error exactly if TO_REG's function gives it. -/
theorem exec_toReg_eq_error_iff {s : State} {code : BitVec 3} {e : CodecError} :
    exec .toReg s = .next (s.withError code e) ↔
      toRegister s.freqIn s.xtalIn = .error e ∧ code = e.code := by
  rw [exec_eq_finish, Host.Outcome.next.injEq, State.finish_eq_withError]
  simp [outcomeOf, except_map_eq_error]

/-- A request that is presented and performed is its operation on the driven ports. -/
theorem step_present (s : State) (r : Request) :
    step (s.present r) =
      match r with
      | .encode w => exec .encode { s with op := 0b000, imgIn := w }
      | .decode f => exec .decode { s with op := 0b001, frameIn := f }
      | .lower c => exec .lower { s with op := 0b010, cfgIn := c }
      | .toReg f x => exec .toReg { s with op := 0b011, freqIn := f, xtalIn := x }
      | .fromReg n x => exec .fromReg { s with op := 0b100, nIn := n, xtalIn := x }
      | .split n => exec .split { s with op := 0b101, nIn := n }
      | .join u l => exec .join { s with op := 0b110, upperIn := u, lowerIn := l }
      | .reserved => .next (State.raise { s with op := 0b111 } (.illegalOperation 0b111)) := by
  cases r <;> rfl

end Sys2Proof.Machine
end

