-- ==== Sys2Proof/Laws/Rounding.lean ====
section
/-! SUPPORT. What rounding gives: the nearest integer by the tie rule, and nothing else. -/

namespace Sys2Proof.Machine

/-- `roundNearest` gives a nearest integer. -/
theorem roundNearest_isNearest (rule : TieRule) (q : Rat) :
    IsNearest rule q (roundNearest rule q) := by
  have h0 : ((q.floor : Int) : Rat) ≤ q := Rat.floor_le q
  have h1 : q < (q.floor : Int) + 1 := by
    exact_mod_cast Rat.lt_floor_add_one q
  unfold IsNearest roundNearest
  generalize q.floor = k at *
  dsimp only
  split
  · rw [abs_of_nonneg (by linarith)]
    exact ⟨by linarith, fun h => by linarith⟩
  · split
    · push_cast
      rw [abs_of_neg (by linarith)]
      exact ⟨by linarith, fun h => by linarith⟩
    · have hk : q - k = 1 / 2 := by linarith
      cases rule with
      | halfUp =>
        push_cast
        rw [abs_of_neg (by linarith)]
        exact ⟨by linarith, fun _ => by linarith⟩
      | halfEven =>
        dsimp only
        split
        · rw [abs_of_nonneg (by linarith)]
          exact ⟨by linarith, fun _ => by assumption⟩
        · push_cast
          rw [abs_of_neg (by linarith)]
          exact ⟨by linarith, fun _ => by omega⟩

/-- The nearest integer by a tie rule is unique. -/
theorem IsNearest.unique {rule : TieRule} {q : Rat} {n m : Int} (hn : IsNearest rule q n)
    (hm : IsNearest rule q m) : n = m := by
  obtain ⟨hn1, hn2⟩ := hn
  obtain ⟨hm1, hm2⟩ := hm
  rw [abs_le] at hn1 hm1
  by_contra hne
  rcases lt_or_gt_of_ne hne with hlt | hlt
  · have hc : ((n + 1 : Int) : Rat) ≤ m := by exact_mod_cast hlt
    push_cast at hc
    have e1 : |q - n| = 1 / 2 := by rw [abs_of_nonneg (by linarith)]; linarith
    have e2 : |q - m| = 1 / 2 := by rw [abs_of_nonpos (by linarith)]; linarith
    have em : m = n + 1 := by
      have : (m : Rat) ≤ ((n + 1 : Int) : Rat) := by push_cast; linarith
      have : m ≤ n + 1 := by exact_mod_cast this
      omega
    cases rule with
    | halfUp => have := hn2 e1; simp only at this; linarith
    | halfEven => have a := hn2 e1; have b := hm2 e2; simp only at a b; omega
  · have hc : ((m + 1 : Int) : Rat) ≤ n := by exact_mod_cast hlt
    push_cast at hc
    have e1 : |q - n| = 1 / 2 := by rw [abs_of_nonpos (by linarith)]; linarith
    have e2 : |q - m| = 1 / 2 := by rw [abs_of_nonneg (by linarith)]; linarith
    have em : n = m + 1 := by
      have : (n : Rat) ≤ ((m + 1 : Int) : Rat) := by push_cast; linarith
      have : n ≤ m + 1 := by exact_mod_cast this
      omega
    cases rule with
    | halfUp => have := hm2 e2; simp only at this; linarith
    | halfEven => have a := hn2 e1; have b := hm2 e2; simp only at a b; omega

/-- FROM_REG's rounding is `roundNearest` by its rule. -/
theorem roundInverse_eq (rule : TieRule) (q : Rat) : roundInverse rule q = roundNearest rule q := by
  cases rule <;> rfl

/-- TO_REG's rounding is `roundNearest` half to even. -/
theorem roundHalfEven_eq (q : Rat) : roundHalfEven q = roundNearest .halfEven q := rfl

/-- Rounding is monotone. -/
theorem roundNearest_mono (rule : TieRule) {p q : Rat} (h : p ≤ q) :
    roundNearest rule p ≤ roundNearest rule q := by
  rcases h.eq_or_lt with rfl | h
  · exact le_rfl
  have hp := (roundNearest_isNearest rule p).1
  have hq := (roundNearest_isNearest rule q).1
  rw [abs_le] at hp hq
  have : ((roundNearest rule p : Int) : Rat) < (roundNearest rule q : Int) + 1 := by linarith
  have : roundNearest rule p < roundNearest rule q + 1 := by exact_mod_cast this
  omega

end Sys2Proof.Machine
end

