-- ==== Sys2Proof/Laws/Pll.lean ====
section
/-! SUPPORT. What the converter's shared operations give: the crystal and band predicates, the pair
and its divisor as numbers, and the two converter functions. -/

namespace Sys2Proof.Machine

/-- The crystal check accepts exactly the three crystals. -/
theorem crystalSupported_iff (x : Nat) : crystalSupported x = true ↔ SupportedCrystal x := by
  simp [crystalSupported, Config.supportedCrystalsHz]

/-- The crystal check refuses exactly the others. -/
theorem crystalSupported_eq_false (x : Nat) :
    crystalSupported x = false ↔ ¬SupportedCrystal x := by
  rw [← crystalSupported_iff, Bool.not_eq_true]

/-- A supported crystal is positive. -/
theorem SupportedCrystal.pos {x : Nat} (h : SupportedCrystal x) : (0 : Rat) < x := by
  rcases h with rfl | rfl | rfl <;> norm_num

/-- The band check. -/
theorem inBand_iff (f : Rat) : inBand f = true ↔ InBand f := by
  rw [inBand, Bool.and_eq_true, decide_eq_true_iff, decide_eq_true_iff]
  rfl

/-- The upper part as a number. -/
theorem splitDivisor_fst_toNat (n : Divisor) : (splitDivisor n).1.toNat = n.toNat / 256 := by
  simp only [splitDivisor, BitVec.extractLsb'_toNat, Nat.shiftRight_eq_div_pow]
  have := n.isLt
  omega

/-- The lower part as a number. -/
theorem splitDivisor_snd_toNat (n : Divisor) : (splitDivisor n).2.toNat = n.toNat % 256 := by
  simp [splitDivisor, BitVec.extractLsb'_toNat]

/-- The joined pair is the concatenation. -/
theorem joinDivisor_eq_append (u : UpperPart) (l : LowerPart) : joinDivisor u l = u ++ l := by
  apply BitVec.eq_of_getLsbD_eq
  intro i hi
  simp only [joinDivisor, BitVec.getLsbD_or, BitVec.getLsbD_shiftLeft, BitVec.getLsbD_setWidth,
    BitVec.getLsbD_append]
  by_cases h : i < 8
  · have : i < 14 := hi
    simp [h, this]
  · have h2 : l.getLsbD i = false := BitVec.getLsbD_of_ge l i (by omega)
    have : i < 14 := hi
    have : i - 8 < 14 := by omega
    simp [*]

/-- The joined pair as a number. -/
theorem joinDivisor_toNat (u : UpperPart) (l : LowerPart) :
    (joinDivisor u l).toNat = u.toNat * 256 + l.toNat := by
  rw [joinDivisor_eq_append, BitVec.toNat_append, ← Nat.shiftLeft_add_eq_or_of_lt l.isLt,
    Nat.shiftLeft_eq]

/-- A rounded divisor that fits is that divisor. -/
theorem fitDivisor_toNat (N : Divisor) : fitDivisor (N.toNat : Int) = .ok N := by
  have h := N.isLt
  have h2 : ¬((N.toNat : Int) < 0 ∨ Config.divisorMax < (N.toNat : Int)) := by
    simp only [Config.divisorMax, Config.divisorBits]
    omega
  rw [fitDivisor, if_neg h2, BitVec.ofInt_natCast, BitVec.ofNat_toNat, BitVec.setWidth_eq]

/-- Everything `fitDivisor` can do. -/
theorem fitDivisor_cases (n : Int) :
    (∃ N : Divisor, n = (N.toNat : Int) ∧ fitDivisor n = .ok N) ∨
      ((n < 0 ∨ 16383 < n) ∧ fitDivisor n = .error (.divisorOutOfRange n)) := by
  by_cases h : n < 0 ∨ 16383 < n
  · refine .inr ⟨h, ?_⟩
    rw [fitDivisor, if_pos]
    simpa [Config.divisorMax, Config.divisorBits] using h
  · refine .inl ⟨BitVec.ofNat 14 n.toNat, ?_, ?_⟩
    · simp only [BitVec.toNat_ofNat]
      omega
    · have e : n = ((BitVec.ofNat 14 n.toNat).toNat : Int) := by
        simp only [BitVec.toNat_ofNat]
        omega
      rw [e]
      exact (fitDivisor_toNat _).trans (by rw [← e])

/-- The forward quotient with its numerals. -/
theorem forwardQuotient_eq (f : Rat) (x : Nat) :
    forwardQuotient f x = 4 * (f * 1000000 + 225000) / x := rfl

/-- The inverse quotient with its numerals. -/
theorem inverseQuotient_eq (n : Divisor) (x : Nat) :
    inverseQuotient n x = ((n.toNat : Rat) * x / 4 - 225000) / 100000 := rfl

/-- TO_REG's function gives `N` exactly for a supported crystal whose rounded quotient is `N`. -/
theorem toRegister_eq_ok_iff {f : Rat} {x : Nat} {N : Divisor} :
    toRegister f x = .ok N ↔
      SupportedCrystal x ∧ roundNearest .halfEven (forwardQuotient f x) = (N.toNat : Int) := by
  rw [toRegister, ← crystalSupported_iff, roundHalfEven_eq]
  split
  · rename_i h
    simp only [h, true_and]
    rcases fitDivisor_cases (roundNearest .halfEven (forwardQuotient f x)) with
      ⟨M, hM, hf⟩ | ⟨hr, hf⟩
    · rw [hf, hM]
      simp [BitVec.toNat_inj]
    · rw [hf]
      have := N.isLt
      simp only [reduceCtorEq, false_iff]
      omega
  · simp [*]

/-- FROM_REG's function gives the rounded frequency for a supported crystal. -/
theorem fromRegister_of_supported {x : Nat} (h : SupportedCrystal x) (rule : TieRule)
    (n : Divisor) : fromRegister rule n x = .ok (roundNearest rule (inverseQuotient n x)) := by
  rw [fromRegister, if_pos ((crystalSupported_iff x).2 h), roundInverse_eq]

/-- Every error TO_REG's function can give. -/
theorem toRegister_eq_error {f : Rat} {x : Nat} {e : CodecError} (h : toRegister f x = .error e) :
    (e = .invalidConfig (.crystalUnsupported x) ∧ ¬SupportedCrystal x) ∨
      ∃ n, e = .divisorOutOfRange n ∧ (n < 0 ∨ 16383 < n) ∧ SupportedCrystal x ∧
        IsNearest .halfEven (forwardQuotient f x) n := by
  unfold toRegister at h
  split at h
  · rename_i hx
    rcases fitDivisor_cases (roundHalfEven (forwardQuotient f x)) with ⟨N, _, hf⟩ | ⟨hr, hf⟩
    · simp [hf] at h
    · rw [hf, Except.error.injEq] at h
      exact .inr ⟨_, h.symm, hr, (crystalSupported_iff x).1 hx, roundNearest_isNearest _ _⟩
  · rename_i hx
    rw [Except.error.injEq] at h
    exact .inl ⟨h.symm, (crystalSupported_iff x).not.1 hx⟩

end Sys2Proof.Machine
end

