-- ==== Sys2Proof/Laws/Codec.lean ====
section
/-! SUPPORT. What LOWER's validation can do. -/

namespace Sys2Proof.Machine

/-- `bit` as a number. -/
@[simp] theorem bit_toNat (b : Bool) : (bit b).toNat = b.toNat := by cases b <;> rfl

/-- `bool` undoes `bit`. -/
@[simp] theorem bool_bit (b : Bool) : bool (bit b) = b := by cases b <;> rfl

/-- LOWER's validation passes exactly for an allowed stop level, a supported crystal and a frequency
in the band. -/
theorem checkConfig_eq_ok_iff (c : DeviceConfig) :
    checkConfig c = .ok () ↔ c.searchStopLevel ≠ 0 ∧ SupportedCrystal c.crystalFrequencyHz ∧
      InBand c.stationFrequencyMHz := by
  rw [← crystalSupported_iff, ← inBand_iff]
  unfold checkConfig
  split
  · simp [*]
  · split
    · simp_all
    · split <;> simp_all

/-- An image LOWER produces is its config's, with TO_REG's divisor. -/
theorem lowerConfig_eq_ok_iff (c : DeviceConfig) (w : WriteImage) :
    lowerConfig c = .ok w ↔ checkConfig c = .ok () ∧
      ∃ n, toRegister c.stationFrequencyMHz c.crystalFrequencyHz = .ok n ∧ imageOf c n = w := by
  unfold lowerConfig
  cases checkConfig c with
  | error e => simp
  | ok u =>
    cases toRegister c.stationFrequencyMHz c.crystalFrequencyHz with
    | error e => simp
    | ok n => simp

/-- Every error LOWER's validation can give. -/
theorem checkConfig_eq_error {c : DeviceConfig} {e : CodecError} (h : checkConfig c = .error e) :
    (e = .invalidConfig .stopLevelNotAllowed ∧ c.searchStopLevel = 0) ∨
      (e = .invalidConfig (.crystalUnsupported c.crystalFrequencyHz) ∧
        ¬SupportedCrystal c.crystalFrequencyHz) ∨
      (e = .frequencyOutOfBand c.stationFrequencyMHz ∧ ¬InBand c.stationFrequencyMHz) := by
  unfold checkConfig at h
  split at h
  · rw [Except.error.injEq] at h; exact .inl ⟨h.symm, by assumption⟩
  · split at h
    · rename_i hx
      rw [Except.error.injEq] at h
      rw [Bool.not_eq_true', crystalSupported_eq_false] at hx
      exact .inr (.inl ⟨h.symm, hx⟩)
    · split at h
      · rename_i hf
        rw [Except.error.injEq] at h
        rw [Bool.not_eq_true', ← Bool.not_eq_true, inBand_iff] at hf
        exact .inr (.inr ⟨h.symm, hf⟩)
      · simp at h

end Sys2Proof.Machine
end

