-- ==== Sys2Proof/Laws/PerInstr.lean ====
section
/-! SUPPORT. Statements about each operation as syntax, one lemma per constructor. -/

/-- The operation is well formed, and its selector decodes to it. -/
def Sys2Proof.Laws.SelectorRoundTrip.Statement (i : Sys2Proof.Instr) : Prop :=
  i.wellFormed = true ∧ Sys2Proof.decode (Sys2Proof.encode i) = .ok i

namespace Sys2Proof.Laws.SelectorRoundTrip

theorem encode : Statement .encode := ⟨rfl, rfl⟩
theorem decode : Statement .decode := ⟨rfl, rfl⟩
theorem lower : Statement .lower := ⟨rfl, rfl⟩
theorem toReg : Statement .toReg := ⟨rfl, rfl⟩
theorem fromReg : Statement .fromReg := ⟨rfl, rfl⟩
theorem split : Statement .split := ⟨rfl, rfl⟩
theorem join : Statement .join := ⟨rfl, rfl⟩

end Sys2Proof.Laws.SelectorRoundTrip
end

