-- ==== Sys2Proof/Tests/Slice0.lean ====
section
/-! SUPPORT. The model's own tests. Expected values come from 95_test_vectors.md or from the rule
named beside a test, never from the model. The witnesses at the end meet the hypotheses of the
statements in Certificates/Slice0/Obligations.lean. -/

namespace Sys2Proof.Tests

open Sys2Proof.Machine

/-! ### The selector words of 30_encoding.md R70, written out -/

theorem test_decode_word_encode : decode 0b000 = .ok .encode := rfl
theorem test_decode_word_decode : decode 0b001 = .ok .decode := rfl
theorem test_decode_word_lower : decode 0b010 = .ok .lower := rfl
theorem test_decode_word_toReg : decode 0b011 = .ok .toReg := rfl
theorem test_decode_word_fromReg : decode 0b100 = .ok .fromReg := rfl
theorem test_decode_word_split : decode 0b101 = .ok .split := rfl
theorem test_decode_word_join : decode 0b110 = .ok .join := rfl
theorem test_decode_word_reserved : decode 0b111 = .error (.reservedSelector 0b111) := rfl

theorem test_table_words :
    decodeTableWord 8 0b011 = some .toReg ∧ decodeTableWord 8 0b111 = none := by decide

/-! ### WellFormed: an ill-formed term for each check (an operation carries nothing to check) -/

/-- The base config `A` of 95_test_vectors.md 2.1. -/
def baseConfig : DeviceConfig :=
  { Config.initialConfig with
    searchStopLevel := 0b01, crystalFrequencyHz := 32768, highCutControl := true,
    stereoNoiseCanceling := true, stationFrequencyMHz := 100 }

theorem test_frameLengthOk_refuses :
    frameLengthOk [0, 0, 0, 0] = false ∧ frameLengthOk [0, 0, 0, 0, 0, 0] = false := by decide

theorem test_stopLevelOk_refuses : stopLevelOk { baseConfig with searchStopLevel := 0 } = false := by
  decide

theorem test_crystalOk_refuses :
    crystalOk { baseConfig with crystalFrequencyHz := 12000000 } = false := by decide

theorem test_frequencyOk_refuses :
    frequencyOk { baseConfig with stationFrequencyMHz := 874 / 10 } = false ∧
      frequencyOk { baseConfig with stationFrequencyMHz := 108 } = false := by decide +kernel

theorem test_configWellFormed_accepts : configWellFormed baseConfig = true := by decide +kernel

/-! ### One step of each operation -/

/-- The outputs after one step from `s` with selector `op`. -/
def after (op : Selector) (s : State) :
    Option (Option Result × BitVec 3 × Option CodecError) :=
  match step { s with op := op } with
  | .next t => some t.outputs
  | _ => none

/-- The outputs of a success. -/
def ok (r : Result) : Option (Option Result × BitVec 3 × Option CodecError) :=
  some (some r, 0, none)

/-- The outputs of an error. -/
def err (code : BitVec 3) (e : CodecError) :
    Option (Option Result × BitVec 3 × Option CodecError) :=
  some (none, code, some e)

/-- A state whose input ports hold the examples of the operation rules. -/
def sample : State :=
  { State.reset with
    cfgIn := baseConfig, imgIn := imageOf baseConfig 12234, frameIn := ⟨0x2F, 0xCA, 0xB5, 0xA4, 0⟩,
    freqIn := 100, xtalIn := 32768, nIn := 12234, upperIn := 0x29, lowerIn := 0xD5 }

/-- V-L5: `muteLeft` is byte 2 bit 1, not bit 2. -/
theorem test_encode_mute_left :
    after 0b000 { sample with
      imgIn := imageOf
        { baseConfig with muteLeft := true, forcedMono := true, softwarePort1 := true,
                          softwarePort2 := true, standby := true, japaneseBand := true } 10709 } =
      ok (.frame ⟨0x29, 0xD5, 0x2B, 0xF6, 0x00⟩) := by decide +kernel

/-- V-E5: the values LOWER never produces are packed unchanged. -/
theorem test_encode_not_allowed_values :
    after 0b000 { sample with
      imgIn := { WriteImage.zero with xtalSelect := 1, pllRefSelect := 1 } } =
      ok (.frame ⟨0x00, 0x00, 0x00, 0x10, 0x80⟩) := by decide +kernel

/-- V-D1. -/
theorem test_decode_example :
    after 0b001 sample = ok (.status ⟨false, false, 12234, true, 53, 10, 2⟩) := by decide +kernel

/-- V-D4: byte 3 bit 0 and byte 4 are ignored. -/
theorem test_decode_ignored_bits :
    after 0b001 { sample with frameIn := ⟨0xC0, 0x00, 0x7F, 0x01, 0xAA⟩ } =
      ok (.status ⟨true, true, 0, false, 127, 0, 0⟩) := by decide +kernel

/-- R76's example, field by field in R30's order. -/
theorem test_lower_example :
    after 0b010 sample =
      ok (.image ⟨0, 0, 0x2F, 0xCA, 0, 0b01, 0, 0, 0, 0, 0, 0, 0, 0, 1, 0, 1, 1, 0, 0, 0⟩) := by
  decide +kernel

/-- V-L10: the comparison is exact, with no rounding before it. -/
theorem test_lower_out_of_band :
    after 0b010 { sample with cfgIn := { baseConfig with stationFrequencyMHz := 10795 / 100 } } =
      err 2 (.frequencyOutOfBand (10795 / 100)) := by decide +kernel

/-- The 13 MHz tie of R86 at 92.4 MHz: q = 28.5 goes to 28. -/
theorem test_toReg_tie :
    after 0b011 { sample with freqIn := 924 / 10, xtalIn := 13000000 } = ok (.divisor 28) := by
  decide +kernel

/-- V-T4: a negative rounded divisor. -/
theorem test_toReg_negative :
    after 0b011 { sample with freqIn := -23 / 100 } = err 3 (.divisorOutOfRange (-1)) := by
  decide +kernel

/-- V-F6 under both tie rules. -/
theorem test_fromReg_tie :
    after 0b100 { sample with nIn := 59, xtalIn := 6500000 } = ok (.tenths 957) ∧
      after 0b100 { sample with nIn := 59, xtalIn := 6500000, inverseTieRule := .halfEven } =
        ok (.tenths 956) := by decide +kernel

/-- V-F1: negative results exist. -/
theorem test_fromReg_zero : after 0b100 { sample with nIn := 0 } = ok (.tenths (-2)) := by
  decide +kernel

/-- V-S1. -/
theorem test_split_example : after 0b101 sample = ok (.parts 0x2F 0xCA) := by decide +kernel

/-- V-S4: the lower part takes exactly 8 bits. -/
theorem test_split_low_byte : after 0b101 { sample with nIn := 0x00FF } = ok (.parts 0x00 0xFF) := by
  decide +kernel

/-- V-J1. -/
theorem test_join_example : after 0b110 sample = ok (.divisor 10709) := by decide +kernel

/-- V-J4. -/
theorem test_join_order :
    after 0b110 { sample with upperIn := 0x12, lowerIn := 0x34 } = ok (.divisor 0x1234) := by
  decide +kernel

/-- V-O1. -/
theorem test_reserved_selector : after 0b111 sample = err 4 (.illegalOperation 0b111) := by
  decide +kernel

/-- A word placed on the selector is the operation the next step performs. -/
theorem test_withFetchWord :
    step (State.reset.withFetchWord 8 0b110) =
      exec .join (State.reset.withFetchWord 8 0b110) := rfl

/-! ### Witnesses: the hypotheses of each statement are met -/

theorem witness_StepPerformsSelectedOperation :
    Instr.wellFormed .encode = true ∧ decode State.reset.op = .ok .encode := ⟨rfl, rfl⟩

theorem witness_SelectorDecodeEncodeAgree :
    Instr.wellFormed .join = true ∧ decode 0b110 = .ok .join := ⟨rfl, rfl⟩

theorem witness_ReservedSelectorReportsIllegalOperation :
    ({ sample with op := 0b111 } : State).op = 0b111 := rfl

/-- One step for each error of R98, and a step that succeeds. -/
theorem witness_ErrorCodes :
    after 0b010 { sample with cfgIn := { baseConfig with searchStopLevel := 0 } } =
        err 1 (.invalidConfig .stopLevelNotAllowed) ∧
      after 0b100 { sample with xtalIn := 100 } =
        err 1 (.invalidConfig (.crystalUnsupported 100)) ∧
      after 0b010 { sample with cfgIn := { baseConfig with stationFrequencyMHz := 108 } } =
        err 2 (.frequencyOutOfBand 108) ∧
      after 0b011 { sample with freqIn := 1341 / 10 } = err 3 (.divisorOutOfRange 16397) ∧
      after 0b111 sample = err 4 (.illegalOperation 0b111) ∧
      after 0b000 State.reset = ok (.frame ⟨0, 0, 0, 0, 0⟩) :=
  ⟨by decide +kernel, by decide +kernel, by decide +kernel, by decide +kernel, by decide +kernel,
    by decide +kernel⟩

theorem witness_EncodeSourceExamples :
    State.reset.imgIn = WriteImage.zero ∧
      ({ State.reset with imgIn := { WriteImage.zero with mute := 1 } } : State).imgIn =
        { WriteImage.zero with mute := 1 } ∧
      ({ State.reset with
          imgIn := { WriteImage.zero with mute := 1, searchMode := 1, upperFreq := 0x12 } } :
        State).imgIn = { WriteImage.zero with mute := 1, searchMode := 1, upperFreq := 0x12 } :=
  ⟨rfl, rfl, rfl⟩

theorem witness_EncodeInjective :
    exec .encode State.reset = .next (State.reset.withResult (.frame Frame.zero)) ∧
      exec .encode { State.reset with xtalIn := 1 } =
        .next (State.withResult { State.reset with xtalIn := 1 } (.frame Frame.zero)) :=
  ⟨rfl, rfl⟩

/-- Two frames that differ in byte 3 bit 0 and in byte 4. -/
theorem witness_DecodeIgnoresUnusedBits :
    (⟨0xC0, 0x00, 0x7F, 0x01, 0xAA⟩ : Frame) ≠ ⟨0xC0, 0x00, 0x7F, 0x00, 0x00⟩ ∧
      (0x01 : Byte).toNat / 2 = (0x00 : Byte).toNat / 2 := by decide

/-- Each clause at a boundary: stop level 0; a crystal 1 Hz off; just outside the band on both
sides; both band edges. -/
theorem witness_LowerMeaning :
    ({ baseConfig with searchStopLevel := 0 } : DeviceConfig).searchStopLevel = 0 ∧
      (baseConfig.searchStopLevel ≠ 0 ∧ ¬SupportedCrystal 32769) ∧
      (SupportedCrystal baseConfig.crystalFrequencyHz ∧ ¬InBand (87499 / 1000) ∧
        ¬InBand (107901 / 1000)) ∧
      InBand (875 / 10) ∧ InBand (1079 / 10) := by decide +kernel

theorem witness_UnsupportedCrystalRefused :
    (baseConfig.searchStopLevel ≠ 0 ∧ ¬SupportedCrystal 0) ∧ ¬SupportedCrystal 12999999 := by
  decide +kernel

/-- A computed rounding is a nearest integer. -/
theorem isNearest_of_round {rule : TieRule} {q : Rat} {n : Int} (h : roundNearest rule q = n) :
    IsNearest rule q n :=
  h ▸ roundNearest_isNearest rule q

/-- The least and the greatest divisor, and the first value outside on both sides. -/
theorem witness_ToRegMeaning :
    ¬SupportedCrystal 0 ∧ SupportedCrystal 32768 ∧
      IsNearest .halfEven (4 * ((-225 / 1000) * 1000000 + 225000) / (32768 : Nat)) 0 ∧
      IsNearest .halfEven (4 * ((133988 / 1000) * 1000000 + 225000) / (32768 : Nat)) 16383 ∧
      IsNearest .halfEven (4 * ((-23 / 100) * 1000000 + 225000) / (32768 : Nat)) (-1) ∧
      IsNearest .halfEven (4 * ((133989 / 1000) * 1000000 + 225000) / (32768 : Nat)) 16384 :=
  ⟨by decide, by decide, isNearest_of_round (by decide +kernel),
    isNearest_of_round (by decide +kernel), isNearest_of_round (by decide +kernel),
    isNearest_of_round (by decide +kernel)⟩

theorem witness_ToRegDomain : SupportedCrystal sample.xtalIn := by decide

/-- 87.5 and 87.6 MHz have one divisor at 6.5 MHz (R93). -/
theorem witness_ToRegMonotone :
    let s : State := { sample with freqIn := 875 / 10, xtalIn := 6500000 }
    let t : State := { sample with freqIn := 876 / 10, xtalIn := 6500000 }
    s.xtalIn = t.xtalIn ∧ s.freqIn ≤ t.freqIn ∧
      exec .toReg s = .next (s.withResult (.divisor 54)) ∧
      exec .toReg t = .next (t.withResult (.divisor 54)) :=
  ⟨rfl, by decide +kernel,
    exec_toReg_eq_divisor_iff.2 (toRegister_eq_ok_iff.2 (by decide +kernel)),
    exec_toReg_eq_divisor_iff.2 (toRegister_eq_ok_iff.2 (by decide +kernel))⟩

/-- 87.5 and 87.6 MHz at 32768 Hz (table V-T). -/
theorem witness_ToRegStrictOnGrid32768 :
    let s : State := { sample with freqIn := 875 / 10 }
    let t : State := { sample with freqIn := 876 / 10 }
    s.xtalIn = 32768 ∧ t.xtalIn = 32768 ∧ s.freqIn + 1 / 10 ≤ t.freqIn ∧
      exec .toReg s = .next (s.withResult (.divisor 10709)) ∧
      exec .toReg t = .next (t.withResult (.divisor 10721)) :=
  ⟨rfl, rfl, by decide +kernel,
    exec_toReg_eq_divisor_iff.2 (toRegister_eq_ok_iff.2 (by decide +kernel)),
    exec_toReg_eq_divisor_iff.2 (toRegister_eq_ok_iff.2 (by decide +kernel))⟩

theorem witness_InBandDivisorRanges :
    InBand (875 / 10) ∧ InBand (1079 / 10) ∧
      ((13000000, 27, 33) : Nat × Nat × Nat) ∈
        [(32768, 10709, 13199), (6500000, 54, 67), (13000000, 27, 33)] := by decide +kernel

theorem witness_FromRegMeaning :
    ¬SupportedCrystal ({ sample with xtalIn := 100 } : State).xtalIn ∧
      SupportedCrystal sample.xtalIn := by decide

/-- Off the tie divisors, and the least and greatest tie divisors. -/
theorem witness_FromRegTies :
    (SupportedCrystal 6500000 ∧ ¬((6500000 : Nat) = 6500000 ∧ (58 : Divisor).toNat % 4 = 3)) ∧
      (3 : Divisor).toNat = 4 * 0 + 3 ∧ (16383 : Divisor).toNat = 4 * 4095 + 3 := by decide

/-- 100.0 MHz, also on the grid (k = 1000). -/
theorem witness_InverseLaw_and_InverseExactOnGrid32768 :
    sample.xtalIn = 32768 ∧ sample.freqIn = ((1000 : Int) : Rat) / 10 ∧
      exec .toReg sample = .next (sample.withResult (.divisor 12234)) :=
  ⟨rfl, by decide +kernel,
    exec_toReg_eq_divisor_iff.2 (toRegister_eq_ok_iff.2 (by decide +kernel))⟩

theorem witness_SplitJoinInverse :
    exec .split State.reset = .next (State.reset.withResult (.parts 0 0)) ∧
      exec .join State.reset = .next (State.reset.withResult (.divisor 0)) := ⟨rfl, rfl⟩

/-- LOWER accepts the base config (V-L1). -/
theorem witness_RoundTripDivisor :
    exec .lower sample = .next (sample.withResult (.image (imageOf baseConfig 12234))) :=
  exec_lower_eq_image_iff.2 ((lowerConfig_eq_ok_iff _ _).2
    ⟨(checkConfig_eq_ok_iff _).2 (by decide +kernel), 12234,
      toRegister_eq_ok_iff.2 (by decide +kernel), rfl⟩)

/-- Two states that agree on JOIN's ports and on nothing else it could read. -/
theorem witness_OperationReadsAndWrites :
    AgreeOnNamedPorts .join State.reset { State.reset with nIn := 5, xtalIn := 7, err := 3 } ∧
      exec .join State.reset = .next (State.reset.withResult (.divisor 0)) ∧
      exec .join { State.reset with nIn := 5, xtalIn := 7, err := 3 } =
        .next (State.withResult { State.reset with nIn := 5, xtalIn := 7, err := 3 }
          (.divisor 0)) :=
  ⟨⟨rfl, rfl⟩, rfl, rfl⟩

/-- The reset state's outputs are those of its inputs (R112). It is the witness of
StepLeavesFittingOutputs, RunKeepsFittingOutputs, TieRuleDefaultsToHalfUpAndStays and
StepIdempotentAndMemoryless. -/
theorem witness_steps_from_reset :
    step State.reset = .next State.reset ∧ Sys2Proof.core.run 2 State.reset = .next State.reset ∧
      State.reset.err = 0 := ⟨rfl, rfl, rfl⟩

theorem witness_RunKeepsFittingOutputs : State.reset.OutputsFit := ⟨rfl, rfl, rfl⟩

theorem witness_FrameBoundary :
    ([1, 2, 3, 4, 5] : List Byte).length = 5 ∧ ([1, 2, 3, 4] : List Byte).length ≠ 5 := by decide

/-- P5: LOWER of a config with stop level 0 ends a program. -/
theorem witness_ErrorEndsProgram :
    ∃ c', runProgram ([] ++ [.op (.lower 0 (.lit (.config Config.initialConfig)))])
      ⟨State.reset, []⟩ = .ended (.invalidConfig .stopLevelNotAllowed) c' := ⟨_, rfl⟩

/-- Both clauses, over the block state `sample`: the base config, and one with stop level 0. -/
theorem witness_PackIsEncodeOfLower :
    exec .lower { sample with cfgIn := baseConfig } =
        .next (State.withResult { sample with cfgIn := baseConfig }
          (.image (imageOf baseConfig 12234))) ∧
      exec .lower { sample with cfgIn := Config.initialConfig } =
        .next (State.withError { sample with cfgIn := Config.initialConfig } 1
          (.invalidConfig .stopLevelNotAllowed)) :=
  ⟨witness_RoundTripDivisor, rfl⟩

/-- Both clauses: 100.0 MHz at 32768 Hz, and an unsupported crystal. -/
theorem witness_FreqPairIsSplitOfToReg :
    (1 : Nat) ≠ 2 ∧
      exec .toReg { sample with freqIn := 100, xtalIn := 32768 } =
        .next (State.withResult { sample with freqIn := 100, xtalIn := 32768 }
          (.divisor 12234)) ∧
      exec .toReg { sample with freqIn := 100, xtalIn := 0 } =
        .next (State.withError { sample with freqIn := 100, xtalIn := 0 } 1
          (.invalidConfig (.crystalUnsupported 0))) :=
  ⟨by decide, witness_InverseLaw_and_InverseExactOnGrid32768.2.2, rfl⟩

theorem witness_StatusFreqConvertsDecodedDivisor : SupportedCrystal 13000000 := by decide

/-- Each clause: just outside the band on both sides; both band edges, also for a config whose stop
level is not allowed; a tuned config that lowers. -/
theorem witness_TunedConfigLowers :
    (¬InBand (87499 / 1000) ∧ ¬InBand (107901 / 1000)) ∧ (InBand (875 / 10) ∧ InBand (1079 / 10)) ∧
      Config.initialConfig.searchStopLevel = 0 ∧
      baseConfig.searchStopLevel ≠ 0 ∧ SupportedCrystal baseConfig.crystalFrequencyHz := by
  decide +kernel

end Sys2Proof.Tests
end

/-! ## What an operation reads and writes (10_state.md) -/

namespace Sys2Proof.Machine

/-! ### The outputs `finish` drives -/

/-- The outputs are the outcome's alone: nothing of the state before is left in them. -/
theorem State.finish_outputs_eq (s t : State) (o : Except CodecError Result) :
    (s.finish o).outputs = (t.finish o).outputs := by
  cases o <;> rfl

/-- R107: an operation that reports an error drives no result. -/
theorem State.finish_result_eq_none {s : State} {o : Except CodecError Result}
    (h : (s.finish o).err ≠ 0) : (s.finish o).result = none := by
  cases o with
  | ok r => exact absurd (State.succeed_err s r) h
  | error e => exact State.raise_result s e

/-- A driven result is the outcome's. -/
theorem State.finish_result_eq_some_iff {s : State} {o : Except CodecError Result} {r : Result} :
    (s.finish o).result = some r ↔ o = .ok r := by
  cases o <;> simp

/-- The one next state of an operation. -/
theorem exec_eq_next_iff {i : Instr} {s s' : State} :
    exec i s = .next s' ↔ s.finish (outcomeOf i s) = s' := by
  rw [exec_eq_finish, Host.Outcome.next.injEq]

/-! ### What an operation computes: its operands and the kind of its result (R36) -/

/-- An operation computes from the ports it names only. -/
theorem outcomeOf_eq_of_agree {i : Instr} {s t : State} (h : AgreeOnNamedPorts i s t) :
    outcomeOf i s = outcomeOf i t := by
  cases i with
  | encode =>
    have himg : s.imgIn = t.imgIn := h
    simp only [outcomeOf, himg]
  | decode =>
    have hframe : s.frameIn = t.frameIn := h
    simp only [outcomeOf, hframe]
  | lower =>
    have hcfg : s.cfgIn = t.cfgIn := h
    simp only [outcomeOf, hcfg]
  | toReg =>
    obtain ⟨hfreq, hxtal⟩ := h
    simp only [outcomeOf, hfreq, hxtal]
  | fromReg =>
    obtain ⟨hn, hxtal, hrule⟩ := h
    simp only [outcomeOf, hn, hxtal, hrule]
  | split =>
    have hn : s.nIn = t.nIn := h
    simp only [outcomeOf, hn]
  | join =>
    obtain ⟨hupper, hlower⟩ := h
    simp only [outcomeOf, hupper, hlower]

/-- `r` is of the kind R36's row gives for the operation `i`. -/
def Result.OfRowKind (i : Instr) (r : Result) : Prop :=
  match i with
  | .lower => ∃ w, r = .image w
  | .encode => ∃ f, r = .frame f
  | .decode => ∃ st, r = .status st
  | .toReg => ∃ n, r = .divisor n
  | .fromReg => ∃ d, r = .tenths d
  | .split => ∃ u l, r = .parts u l
  | .join => ∃ n, r = .divisor n

/-- A mapped outcome's result is of the map's form. -/
theorem exists_eq_of_except_map_eq_ok {ε α β : Type} {f : α → β} {o : Except ε α} {b : β}
    (h : o.map f = .ok b) : ∃ a, b = f a := by
  obtain ⟨a, -, hb⟩ := except_map_eq_ok.1 h
  exact ⟨a, hb.symm⟩

/-- A computed result is of its row's kind. -/
theorem ofRowKind_of_outcomeOf_eq_ok {i : Instr} {s : State} {r : Result}
    (h : outcomeOf i s = .ok r) : r.OfRowKind i := by
  cases i with
  | encode => exact ⟨_, (Except.ok.inj h).symm⟩
  | decode => exact ⟨_, (Except.ok.inj h).symm⟩
  | lower => exact exists_eq_of_except_map_eq_ok h
  | toReg => exact exists_eq_of_except_map_eq_ok h
  | fromReg => exact exists_eq_of_except_map_eq_ok h
  | split => exact ⟨_, _, (Except.ok.inj h).symm⟩
  | join => exact ⟨_, (Except.ok.inj h).symm⟩

/-- Settles O30: every operation is `finish` of an outcome computed from its named ports, so the
outputs follow the outcome. -/
theorem operationReadsAndWrites : Obligations.OperationReadsAndWrites := by
  refine ⟨fun i s t s' t' hagree hs ht => ?_, fun i s s' hs => ?_⟩
  · obtain rfl := exec_eq_next_iff.1 hs
    obtain rfl := exec_eq_next_iff.1 ht
    rw [outcomeOf_eq_of_agree hagree]
    exact State.finish_outputs_eq s t _
  · obtain rfl := exec_eq_next_iff.1 hs
    exact ⟨State.finish_result_eq_none, fun r hr =>
      ofRowKind_of_outcomeOf_eq_ok (State.finish_result_eq_some_iff.1 hr)⟩

/-! ### The bits DECODE ignores (R33) -/

/-- DECODE always drives the status of its frame. -/
theorem exec_decode_eq_status (s : State) :
    exec .decode s = .next (s.withResult (.status (decodeFrame s.frameIn))) :=
  exec_eq_finish .decode s

/-- A field that starts above bit 0 does not see bit 0. -/
theorem extractLsb'_succ_eq_of_div_two_eq {a b : Byte} (h : a.toNat / 2 = b.toNat / 2)
    (k len : Nat) : a.extractLsb' (k + 1) len = b.extractLsb' (k + 1) len := by
  apply BitVec.eq_of_toNat_eq
  simp only [BitVec.extractLsb'_toNat, Nat.shiftRight_eq_div_pow, Nat.pow_succ',
    ← Nat.div_div_eq_div_mul, h]

/-- Frames that differ only in byte 3 bit 0 and in byte 4 have one status. -/
theorem decodeFrame_eq_of_used_bits_eq {f g : Frame} (h0 : f.b0 = g.b0) (h1 : f.b1 = g.b1)
    (h2 : f.b2 = g.b2) (h3 : f.b3.toNat / 2 = g.b3.toNat / 2) : decodeFrame f = decodeFrame g := by
  have hlevel : f.b3.extractLsb' 4 4 = g.b3.extractLsb' 4 4 :=
    extractLsb'_succ_eq_of_div_two_eq h3 3 4
  have hchip : f.b3.extractLsb' 1 3 = g.b3.extractLsb' 1 3 :=
    extractLsb'_succ_eq_of_div_two_eq h3 0 3
  simp only [decodeFrame, h0, h1, h2, hlevel, hchip]

/-- Settles O12: the common status is the one of the first state's frame. -/
theorem decodeIgnoresUnusedBits : Obligations.DecodeIgnoresUnusedBits := by
  intro s t h0 h1 h2 h3
  refine ⟨decodeFrame s.frameIn, exec_decode_eq_status s, ?_⟩
  rw [decodeFrame_eq_of_used_bits_eq h0 h1 h2 h3]
  exact exec_decode_eq_status t

end Sys2Proof.Machine

/-! ## Frames as byte sequences (20_memory.md) -/

namespace Sys2Proof.Machine

/-! ### The boundary of R45 -/

/-- A frame's bytes, in order, are that frame. -/
@[simp] theorem Frame.ofBytes_toBytes (f : Frame) : Frame.ofBytes f.toBytes = .ok f := rfl

/-- Every sequence of 5 bytes is the bytes of a frame. -/
theorem Frame.exists_toBytes_eq {bs : List Byte} (h : bs.length = 5) :
    ∃ f : Frame, f.toBytes = bs :=
  match bs, h with
  | [b0, b1, b2, b3, b4], _ => ⟨⟨b0, b1, b2, b3, b4⟩, rfl⟩

/-- A sequence of any other length is refused with its length. -/
theorem Frame.ofBytes_of_length_ne {bs : List Byte} (h : bs.length ≠ 5) :
    Frame.ofBytes bs = .error (.notAFrame bs.length) := by
  unfold Frame.ofBytes
  split
  · exact absurd rfl h
  · rfl

/-! ### A refused operand refuses its line -/

/-- An operand that has no value cannot be read as a port of any type. -/
theorem Operand.read_of_eval_error {α : Type} {pick : Value → Option α} {env : Env} {o : Operand}
    {r : Refusal} (h : o.eval env = .error r) : o.read pick env = .error r := by
  simp only [Operand.read, h]

/-- A line whose request cannot be formed is refused, and the caller and its block stay as they
were. -/
theorem Caller.perform_of_request_error {c : Caller} {st : Stmt} {r : Refusal}
    (h : st.request c.env = .error r) : c.perform st = .refused r c := by
  simp only [Caller.perform, h]

/-- A frame literal that is not a frame has no value. -/
theorem Operand.eval_bytes_of_length_ne {bs : List Byte} (h : bs.length ≠ 5) (env : Env) :
    (Operand.bytes bs).eval env = .error (.notAFrame bs.length) := by
  simp only [Operand.eval, Frame.ofBytes_of_length_ne h, Except.map]

/-- A DECODE line presents no request if its operand is refused. -/
theorem Stmt.request_decode_of_eval_error {env : Env} {o : Operand} {r : Refusal}
    (h : o.eval env = .error r) (st : Nat) : (Stmt.decode st o).request env = .error r := by
  simp only [Stmt.request, Operand.read_of_eval_error h, Except.map]

/-- Settles O36: 5 bytes are the bytes of a frame; of any other length the literal has no value, so
DECODE's request is never presented. -/
theorem frameBoundary : Obligations.FrameBoundary := by
  refine fun bs => ⟨fun hlen => ?_, fun hlen c st => ?_⟩
  · obtain ⟨f, rfl⟩ := Frame.exists_toBytes_eq hlen
    exact ⟨f, f.ofBytes_toBytes, rfl⟩
  · have heval := Operand.eval_bytes_of_length_ne hlen c.env
    exact Caller.perform_of_request_error (Stmt.request_decode_of_eval_error heval st)

end Sys2Proof.Machine

/-! ## The selector and the fields' places in a frame (30_encoding.md) -/

namespace Sys2Proof.Machine

/-! ### A field at its place in a byte (R11) -/

/-- A field placed at bit `k` of a byte weighs `2 ^ k`. -/
theorem placed_toNat {width : Nat} (field : BitVec width) (k : Nat) (hfit : k + width ≤ 8) :
    (field.setWidth 8 <<< k).toNat = 2 ^ k * field.toNat := by
  have hscaled : 2 ^ k * field.toNat < 2 ^ 8 :=
    calc 2 ^ k * field.toNat < 2 ^ k * 2 ^ width := by gcongr; exact field.isLt
      _ = 2 ^ (k + width) := (pow_add ..).symm
      _ ≤ 2 ^ 8 := Nat.pow_le_pow_right (by decide) hfit
  have hfield : field.toNat < 2 ^ 8 :=
    (Nat.le_mul_of_pos_left _ (Nat.two_pow_pos k)).trans_lt hscaled
  rw [BitVec.toNat_shiftLeft, BitVec.toNat_setWidth, Nat.mod_eq_of_lt hfield, Nat.shiftLeft_eq,
    Nat.mul_comm, Nat.mod_eq_of_lt hscaled]

/-- A 1-bit field at bit `k` weighs `2 ^ k`. -/
theorem atBit_toNat (x : Bit) {k : Nat} (hk : k < 8) : (atBit x k).toNat = 2 ^ k * x.toNat :=
  placed_toNat x k hk

/-- A field placed right below a byte's used bits does not overlap them: the used bits `high` move
up by the field's width. -/
theorem or_placed_toNat {b : Byte} {high width : Nat} (field : BitVec width) (k : Nat)
    (hfit : k + width ≤ 8) (hb : b.toNat = 2 ^ (k + width) * high) :
    (b ||| field.setWidth 8 <<< k).toNat = 2 ^ k * (2 ^ width * high + field.toNat) := by
  have hbelow : 2 ^ k * field.toNat < 2 ^ (k + width) := by
    rw [pow_add]
    gcongr
    exact field.isLt
  rw [BitVec.toNat_or, placed_toNat field k hfit, hb, ← Nat.two_pow_add_eq_or_of_lt hbelow,
    pow_add, Nat.mul_assoc, ← Nat.mul_add]

/-- A 1-bit field placed right below a byte's used bits. -/
theorem or_atBit_toNat {b : Byte} {high : Nat} (x : Bit) (k : Nat) (hk : k < 8)
    (hb : b.toNat = 2 ^ (k + 1) * high) :
    (b ||| atBit x k).toNat = 2 ^ k * (2 ^ 1 * high + x.toNat) :=
  or_placed_toNat x k hk hb

/-- A field that fills a byte's low bits, below the used ones. -/
theorem or_setWidth_toNat {b : Byte} {high width : Nat} (field : BitVec width)
    (hfit : width ≤ 8) (hb : b.toNat = 2 ^ width * high) :
    (b ||| field.setWidth 8).toNat = 2 ^ width * high + field.toNat := by
  simpa using or_placed_toNat field 0 (by omega) (by rwa [Nat.zero_add])

/-! ### The five bytes ENCODE drives (R52 to R56) -/

section
variable (w : WriteImage)

/-- R52. -/
theorem encodeFrame_b0_toNat :
    (encodeFrame w).b0.toNat =
      128 * w.mute.toNat + 64 * w.searchMode.toNat + w.upperFreq.toNat := by
  have h7 := atBit_toNat w.mute (k := 7) (by decide)
  have h6 := or_atBit_toNat w.searchMode 6 (by decide) h7
  have h0 := or_setWidth_toNat w.upperFreq (by decide) h6
  rw [encodeFrame, h0]
  omega

/-- R53. -/
theorem encodeFrame_b1 : (encodeFrame w).b1 = w.lowerFreq := rfl

/-- R54. `muteRight` is bit 2 and `muteLeft` is bit 1. -/
theorem encodeFrame_b2_toNat :
    (encodeFrame w).b2.toNat =
      128 * w.searchDirection.toNat + 32 * w.searchStopLevel.toNat +
        16 * w.injectionSide.toNat + 8 * w.forcedMono.toNat + 4 * w.muteRight.toNat +
        2 * w.muteLeft.toNat + w.softwarePort1.toNat := by
  have h7 := atBit_toNat w.searchDirection (k := 7) (by decide)
  have h5 := or_placed_toNat w.searchStopLevel 5 (by decide) h7
  have h4 := or_atBit_toNat w.injectionSide 4 (by decide) h5
  have h3 := or_atBit_toNat w.forcedMono 3 (by decide) h4
  have h2 := or_atBit_toNat w.muteRight 2 (by decide) h3
  have h1 := or_atBit_toNat w.muteLeft 1 (by decide) h2
  have h0 := or_atBit_toNat w.softwarePort1 0 (by decide) h1
  rw [encodeFrame, h0]
  omega

/-- R55. -/
theorem encodeFrame_b3_toNat :
    (encodeFrame w).b3.toNat =
      128 * w.softwarePort2.toNat + 64 * w.standby.toNat + 32 * w.japaneseBand.toNat +
        16 * w.xtalSelect.toNat + 8 * w.softMute.toNat + 4 * w.highCutControl.toNat +
        2 * w.stereoNoiseCanceling.toNat + w.softwarePort1Ready.toNat := by
  have h7 := atBit_toNat w.softwarePort2 (k := 7) (by decide)
  have h6 := or_atBit_toNat w.standby 6 (by decide) h7
  have h5 := or_atBit_toNat w.japaneseBand 5 (by decide) h6
  have h4 := or_atBit_toNat w.xtalSelect 4 (by decide) h5
  have h3 := or_atBit_toNat w.softMute 3 (by decide) h4
  have h2 := or_atBit_toNat w.highCutControl 2 (by decide) h3
  have h1 := or_atBit_toNat w.stereoNoiseCanceling 1 (by decide) h2
  have h0 := or_atBit_toNat w.softwarePort1Ready 0 (by decide) h1
  rw [encodeFrame, h0]
  omega

/-- R56. -/
theorem encodeFrame_b4_toNat :
    (encodeFrame w).b4.toNat = 128 * w.pllRefSelect.toNat + 64 * w.deEmphasis75us.toNat := by
  have h7 := atBit_toNat w.pllRefSelect (k := 7) (by decide)
  have h6 := or_atBit_toNat w.deEmphasis75us 6 (by decide) h7
  rw [encodeFrame, h6]
  omega

end

/-- ENCODE always drives the frame of its image. -/
theorem exec_encode_eq_frame (s : State) :
    exec .encode s = .next (s.withResult (.frame (encodeFrame s.imgIn))) :=
  exec_eq_finish .encode s

/-- Settles O7: in each byte, every field is placed right below the ones before it, so the bytes
are the weighted sums of their fields. -/
theorem encodeBytes : Obligations.EncodeBytes := fun s =>
  ⟨encodeFrame s.imgIn, exec_encode_eq_frame s, encodeFrame_b0_toNat s.imgIn,
    encodeFrame_b1 s.imgIn, encodeFrame_b2_toNat s.imgIn, encodeFrame_b3_toNat s.imgIn,
    encodeFrame_b4_toNat s.imgIn⟩

/-! ### The bits DECODE reads (R58 to R62) -/

/-- The `width` bits of a byte from bit `k` up, as a number. -/
theorem extractLsb'_toNat_eq_div_mod (b : Byte) (k width : Nat) :
    (b.extractLsb' k width).toNat = b.toNat / 2 ^ k % 2 ^ width := by
  rw [BitVec.extractLsb'_toNat, Nat.shiftRight_eq_div_pow]

/-- A bit read as a boolean. -/
theorem bool_bitOf_iff (b : Byte) (k : Nat) :
    bool (bitOf b k) = true ↔ b.toNat / 2 ^ k % 2 = 1 := by
  rw [bool, beq_iff_eq, ← BitVec.toNat_inj, bitOf, extractLsb'_toNat_eq_div_mod]
  rfl

/-- A byte's top bit is set exactly from 128 up. -/
theorem bool_bitOf_seven_iff (b : Byte) : bool (bitOf b 7) = true ↔ 128 ≤ b.toNat := by
  rw [bool_bitOf_iff]
  have hb := b.isLt
  omega

section
variable (f : Frame)

/-- R58, R59, R63: the divisor is byte 0's low six bits above byte 1. -/
theorem decodeFrame_frequencyRegister_toNat :
    (decodeFrame f).frequencyRegister.toNat = f.b0.toNat % 64 * 256 + f.b1.toNat := by
  simp only [decodeFrame, joinDivisor_toNat, extractLsb'_toNat_eq_div_mod, Nat.reducePow,
    Nat.div_one]

/-- R60. -/
theorem decodeFrame_ifCounter_toNat : (decodeFrame f).ifCounter.toNat = f.b2.toNat % 128 := by
  simp only [decodeFrame, extractLsb'_toNat_eq_div_mod, Nat.reducePow, Nat.div_one]

/-- R61: the high half of byte 3. -/
theorem decodeFrame_signalLevel_toNat : (decodeFrame f).signalLevel.toNat = f.b3.toNat / 16 := by
  rw [decodeFrame, extractLsb'_toNat_eq_div_mod]
  have hb := f.b3.isLt
  omega

/-- R61: bits 3..1 of byte 3. -/
theorem decodeFrame_chipId_toNat : (decodeFrame f).chipId.toNat = f.b3.toNat / 2 % 8 :=
  extractLsb'_toNat_eq_div_mod f.b3 1 3

end

/-- Settles O11: each field is a slice of one byte, and the divisor is a joined pair of slices. -/
theorem decodeFields : Obligations.DecodeFields := fun s =>
  ⟨decodeFrame s.frameIn, exec_decode_eq_status s, bool_bitOf_seven_iff s.frameIn.b0,
    bool_bitOf_iff s.frameIn.b0 6, decodeFrame_frequencyRegister_toNat s.frameIn,
    bool_bitOf_seven_iff s.frameIn.b2, decodeFrame_ifCounter_toNat s.frameIn,
    decodeFrame_signalLevel_toNat s.frameIn, decodeFrame_chipId_toNat s.frameIn⟩

/-! ### The selected operation (R69) -/

/-- A step is the meaning of the operation its selector decodes to. -/
theorem step_of_decode_eq_ok {s : State} {i : Instr} (h : decode s.op = .ok i) :
    step s = exec i s := by
  simp only [step, State.selector, h]

/-- Settles O1: there is nothing to check of an operation, so the decoded selector decides alone. -/
theorem stepPerformsSelectedOperation : Obligations.StepPerformsSelectedOperation :=
  fun _ _ _ hdecode => step_of_decode_eq_ok hdecode

end Sys2Proof.Machine

/-! ## LOWER (40_codec.md) -/

namespace Sys2Proof.Machine

/-! ### The first failing check (R76) -/

section
variable {c : DeviceConfig}

/-- The stop level is checked first. -/
theorem checkConfig_of_stopLevel_eq_zero (hlevel : c.searchStopLevel = 0) :
    checkConfig c = .error (.invalidConfig .stopLevelNotAllowed) := by
  rw [checkConfig, if_pos hlevel]

/-- The crystal is checked second. -/
theorem checkConfig_of_not_supportedCrystal (hlevel : c.searchStopLevel ≠ 0)
    (hxtal : ¬SupportedCrystal c.crystalFrequencyHz) :
    checkConfig c = .error (.invalidConfig (.crystalUnsupported c.crystalFrequencyHz)) := by
  have hrefused := (crystalSupported_eq_false _).2 hxtal
  rw [checkConfig, if_neg hlevel, if_pos (by rw [hrefused]; rfl)]

/-- The band is checked last. -/
theorem checkConfig_of_not_inBand (hlevel : c.searchStopLevel ≠ 0)
    (hxtal : SupportedCrystal c.crystalFrequencyHz) (hband : ¬InBand c.stationFrequencyMHz) :
    checkConfig c = .error (.frequencyOutOfBand c.stationFrequencyMHz) := by
  have haccepted := (crystalSupported_iff _).2 hxtal
  have hrefused := Bool.eq_false_iff.2 ((inBand_iff _).not.2 hband)
  rw [checkConfig, if_neg hlevel, if_neg (by simp [haccepted]), if_pos (by rw [hrefused]; rfl)]

end

/-- LOWER reports the check that fails, with its code. -/
theorem exec_lower_of_checkConfig_eq_error {s : State} {e : CodecError}
    (h : checkConfig s.cfgIn = .error e) : exec .lower s = .next (s.withError e.code e) :=
  exec_lower_eq_error_iff.2 ⟨by simp only [lowerConfig, h], rfl⟩

/-! ### The divisor of a frequency in the band (R77, R85) -/

/-- No supported crystal is slower than the 32768 Hz one. -/
theorem SupportedCrystal.ge_32768 {x : Nat} (h : SupportedCrystal x) : (32768 : Rat) ≤ x := by
  rcases h with rfl | rfl | rfl <;> norm_num

/-- In the band the forward quotient is not negative. -/
theorem forwardQuotient_nonneg_of_inBand {f : Rat} (x : Nat) (hband : InBand f) :
    0 ≤ forwardQuotient f x := by
  obtain ⟨hmin, -⟩ := hband
  rw [forwardQuotient_eq]
  exact div_nonneg (by linarith) (Nat.cast_nonneg x)

/-- In the band the forward quotient fits a divisor: the slowest crystal's is the greatest. -/
theorem forwardQuotient_le_of_inBand {f : Rat} {x : Nat} (hxtal : SupportedCrystal x)
    (hband : InBand f) : forwardQuotient f x ≤ 16383 := by
  obtain ⟨-, hmax⟩ := hband
  have hx := hxtal.ge_32768
  rw [forwardQuotient_eq, div_le_iff₀ hxtal.pos]
  linarith

/-- In the band TO_REG's function reports no error. -/
theorem exists_toRegister_eq_ok_of_inBand {f : Rat} {x : Nat} (hxtal : SupportedCrystal x)
    (hband : InBand f) : ∃ N, toRegister f x = .ok N := by
  cases h : toRegister f x with
  | ok N => exact ⟨N, rfl⟩
  | error e =>
    rcases toRegister_eq_error h with ⟨-, hrefused⟩ | ⟨n, -, hrange, -, hnear, -⟩
    · exact absurd hxtal hrefused
    · have hlow := forwardQuotient_nonneg_of_inBand x hband
      have hhigh := forwardQuotient_le_of_inBand hxtal hband
      obtain ⟨hbelow, habove⟩ := abs_le.1 hnear
      have hn0 : -1 < n := by exact_mod_cast (by linarith : (-1 : Rat) < n)
      have hn1 : n < 16384 := by exact_mod_cast (by linarith : (n : Rat) < 16384)
      omega

/-- A divisor TO_REG's function gives is the nearest integer to the forward quotient. -/
theorem isNearest_of_toRegister_eq_ok {f : Rat} {x : Nat} {N : Divisor}
    (h : toRegister f x = .ok N) :
    IsNearest .halfEven (4 * (f * 1000000 + 225000) / x) (N.toNat : Int) := by
  obtain ⟨-, hround⟩ := toRegister_eq_ok_iff.1 h
  rw [← hround]
  exact roundNearest_isNearest .halfEven (forwardQuotient f x)

/-! ### The image of a config (R76) -/

/-- R65. -/
theorem SearchDirection.code_eq_one_iff (d : SearchDirection) : d.code = 1 ↔ d = .up := by
  cases d <;> decide

/-- R67. -/
theorem InjectionSide.code_eq_one_iff (i : InjectionSide) : i.code = 1 ↔ i = .high := by
  cases i <;> decide

/-- R68: XTAL and PLLREF each name one crystal. -/
theorem clockSelect_eq_one_iff (x : Nat) :
    ((clockSelect x).1 = 1 ↔ x = 32768) ∧ ((clockSelect x).2 = 1 ↔ x = 6500000) := by
  unfold clockSelect
  split
  · simp [*]
  · split <;> simp [*]

/-- The image's register pair is its divisor. -/
theorem imageOf_divisor_toNat (c : DeviceConfig) (N : Divisor) :
    (imageOf c N).upperFreq.toNat * 256 + (imageOf c N).lowerFreq.toNat = N.toNat := by
  rw [imageOf, splitDivisor_fst_toNat, splitDivisor_snd_toNat]
  omega

/-- A config that passes the checks lowers to its image, with TO_REG's divisor. -/
theorem exists_exec_lower_eq_imageOf {s : State} (hlevel : s.cfgIn.searchStopLevel ≠ 0)
    (hxtal : SupportedCrystal s.cfgIn.crystalFrequencyHz)
    (hband : InBand s.cfgIn.stationFrequencyMHz) :
    ∃ N, toRegister s.cfgIn.stationFrequencyMHz s.cfgIn.crystalFrequencyHz = .ok N ∧
      exec .lower s = .next (s.withResult (.image (imageOf s.cfgIn N))) := by
  obtain ⟨N, hN⟩ := exists_toRegister_eq_ok_of_inBand hxtal hband
  have hcheck := (checkConfig_eq_ok_iff _).2 ⟨hlevel, hxtal, hband⟩
  exact ⟨N, hN,
    exec_lower_eq_image_iff.2 ((lowerConfig_eq_ok_iff _ _).2 ⟨hcheck, N, hN, rfl⟩)⟩

/-- Settles O14: the checks fail in their order, and past them the quotient of a frequency in the
band fits 14 bits, so TO_REG's divisor is there to build the image from. -/
theorem lowerMeaning : Obligations.LowerMeaning := by
  refine fun s => ⟨fun hlevel => ?_, fun hlevel hxtal => ?_, fun hlevel hxtal hband => ?_,
    fun hlevel hxtal hband => ?_⟩
  · exact exec_lower_of_checkConfig_eq_error (checkConfig_of_stopLevel_eq_zero hlevel)
  · exact exec_lower_of_checkConfig_eq_error (checkConfig_of_not_supportedCrystal hlevel hxtal)
  · exact exec_lower_of_checkConfig_eq_error (checkConfig_of_not_inBand hlevel hxtal hband)
  · obtain ⟨N, hN, hexec⟩ := exists_exec_lower_eq_imageOf hlevel hxtal hband
    obtain ⟨hxtalSelect, hpllRef⟩ := clockSelect_eq_one_iff s.cfgIn.crystalFrequencyHz
    refine ⟨imageOf s.cfgIn N, hexec, ?_, bit_toNat _, bit_toNat _,
      SearchDirection.code_eq_one_iff _, rfl, InjectionSide.code_eq_one_iff _, bit_toNat _,
      bit_toNat _, bit_toNat _, bit_toNat _, bit_toNat _, bit_toNat _, bit_toNat _,
      hxtalSelect, bit_toNat _, bit_toNat _, bit_toNat _, bit_toNat _,
      hpllRef, bit_toNat _⟩
    rw [imageOf_divisor_toNat]
    exact isNearest_of_toRegister_eq_ok hN

end Sys2Proof.Machine

/-! ## The PLL divisor converter (41_pll.md) -/

namespace Sys2Proof.Machine

/-! ### TO_REG (R85, R87) -/

/-- The integer the tie rule names is the one rounding gives. -/
theorem IsNearest.roundNearest_eq {rule : TieRule} {q : Rat} {n : Int} (h : IsNearest rule q n) :
    roundNearest rule q = n :=
  (roundNearest_isNearest rule q).unique h

/-- A rounded divisor outside 14 bits is reported. -/
theorem fitDivisor_of_out_of_range {n : Int} (h : n < 0 ∨ 16383 < n) :
    fitDivisor n = .error (.divisorOutOfRange n) := by
  rcases fitDivisor_cases n with ⟨N, hN, -⟩ | ⟨-, herror⟩
  · have hlt := N.isLt
    omega
  · exact herror

/-- TO_REG's function refuses any crystal but the three. -/
theorem toRegister_of_not_supportedCrystal {x : Nat} (h : ¬SupportedCrystal x) (f : Rat) :
    toRegister f x = .error (.invalidConfig (.crystalUnsupported x)) := by
  rw [toRegister, if_neg ((crystalSupported_iff x).not.2 h)]

/-- For a supported crystal TO_REG's function is the fit of the nearest integer to the quotient. -/
theorem toRegister_of_isNearest {f : Rat} {x : Nat} {n : Int} (hxtal : SupportedCrystal x)
    (hnear : IsNearest .halfEven (forwardQuotient f x) n) : toRegister f x = fitDivisor n := by
  rw [toRegister, if_pos ((crystalSupported_iff x).2 hxtal), roundHalfEven_eq,
    hnear.roundNearest_eq]

/-- Settles O18: past the crystal check TO_REG fits the one nearest integer, which either is a
divisor or is out of range. -/
theorem toRegMeaning : Obligations.ToRegMeaning := by
  refine fun s => ⟨fun hxtal => ?_, fun hxtal n hnear => ?_⟩
  · exact exec_toReg_eq_error_iff.2 ⟨toRegister_of_not_supportedCrystal hxtal s.freqIn, rfl⟩
  · have hfit : toRegister s.freqIn s.xtalIn = fitDivisor n := toRegister_of_isNearest hxtal hnear
    refine ⟨fun N hN => exec_toReg_eq_divisor_iff.2 ?_,
      fun hrange => exec_toReg_eq_error_iff.2 ⟨?_, rfl⟩⟩
    · rw [hfit, hN, fitDivisor_toNat]
    · rw [hfit, fitDivisor_of_out_of_range hrange]

/-! ### FROM_REG (R88, R89) -/

/-- FROM_REG reports an error exactly if FROM_REG's function gives it. -/
theorem exec_fromReg_eq_error_iff {s : State} {code : BitVec 3} {e : CodecError} :
    exec .fromReg s = .next (s.withError code e) ↔
      fromRegister s.inverseTieRule s.nIn s.xtalIn = .error e ∧ code = e.code := by
  rw [exec_eq_finish, Host.Outcome.next.injEq, State.finish_eq_withError, outcomeOf,
    except_map_eq_error]

/-- FROM_REG's function refuses any crystal but the three. -/
theorem fromRegister_of_not_supportedCrystal {x : Nat} (h : ¬SupportedCrystal x) (rule : TieRule)
    (n : Divisor) : fromRegister rule n x = .error (.invalidConfig (.crystalUnsupported x)) := by
  rw [fromRegister, if_neg ((crystalSupported_iff x).not.2 h)]

/-- Settles O23: past the crystal check FROM_REG drives the rounded quotient for every divisor. -/
theorem fromRegMeaning : Obligations.FromRegMeaning := by
  refine fun s => ⟨fun hxtal => ?_, fun hxtal => ?_⟩
  · exact exec_fromReg_eq_error_iff.2
      ⟨fromRegister_of_not_supportedCrystal hxtal s.inverseTieRule s.nIn, rfl⟩
  · exact ⟨roundNearest s.inverseTieRule (inverseQuotient s.nIn s.xtalIn),
      roundNearest_isNearest s.inverseTieRule (inverseQuotient s.nIn s.xtalIn),
      exec_fromReg_eq_tenths_iff.2 (fromRegister_of_supported hxtal s.inverseTieRule s.nIn)⟩

/-! ### SPLIT and JOIN (R90, R91) -/

/-- SPLIT always drives the two parts of its divisor. -/
theorem exec_split_eq_parts (s : State) :
    exec .split s =
      .next (s.withResult (.parts (splitDivisor s.nIn).1 (splitDivisor s.nIn).2)) :=
  exec_eq_finish .split s

/-- JOIN always drives the joined pair. -/
theorem exec_join_eq_divisor (s : State) :
    exec .join s = .next (s.withResult (.divisor (joinDivisor s.upperIn s.lowerIn))) :=
  exec_eq_finish .join s

/-- Settles O27: the slices and the concatenation, as numbers. -/
theorem splitAndJoin : Obligations.SplitAndJoin :=
  ⟨fun s => ⟨_, _, exec_split_eq_parts s, splitDivisor_fst_toNat s.nIn,
      splitDivisor_snd_toNat s.nIn⟩,
    fun s => ⟨_, exec_join_eq_divisor s, joinDivisor_toNat s.upperIn s.lowerIn⟩⟩

end Sys2Proof.Machine

/-! ## Errors (60_exceptions.md) -/

namespace Sys2Proof.Machine

/-! ### How a step ends (R97) -/

/-- Settles O5: a step is `finish` of the selected outcome, and no error has code 0. -/
theorem operationEndsInResultOrError : Obligations.OperationEndsInResultOrError := by
  refine fun s => ⟨s.finish (outcomeOfSelector s), step_eq_finish s, ?_⟩
  rcases s.finish_cases (outcomeOfSelector s) with ⟨r, -, hfinish⟩ | ⟨e, -, hfinish⟩
  · exact .inl ⟨r, hfinish⟩
  · exact .inr ⟨e.code, e, e.code_ne_zero, hfinish⟩

/-! ### The reserved selector (R103) -/

/-- A selector that decodes to no operation is reported, whatever the operands are. -/
theorem step_of_decode_eq_error {s : State} {op : Selector}
    (h : decode s.op = .error (.reservedSelector op)) :
    step s = .next (s.withError 4 (.illegalOperation op)) := by
  simp only [step, State.selector, h]
  rfl

/-- Settles O4: 111 is the selector that decodes to no operation. -/
theorem reservedSelectorReportsIllegalOperation :
    Obligations.ReservedSelectorReportsIllegalOperation := by
  intro s hop
  have hdecode : decode s.op = .error (.reservedSelector 0b111) := by rw [hop]; rfl
  exact step_of_decode_eq_error hdecode

/-! ### The crystal (R100) -/

/-- Settles O16: LOWER's crystal check comes right after its stop level check, and the converter's
crystal check comes first. -/
theorem unsupportedCrystalRefused : Obligations.UnsupportedCrystalRefused := by
  refine ⟨fun s hlevel hxtal => ?_, fun s hxtal => ⟨?_, ?_⟩⟩
  · exact exec_lower_of_checkConfig_eq_error (checkConfig_of_not_supportedCrystal hlevel hxtal)
  · exact exec_toReg_eq_error_iff.2 ⟨toRegister_of_not_supportedCrystal hxtal s.freqIn, rfl⟩
  · exact exec_fromReg_eq_error_iff.2
      ⟨fromRegister_of_not_supportedCrystal hxtal s.inverseTieRule s.nIn, rfl⟩

/-! ### Which operation raises an error, and what it records (R98 to R103) -/

/-- The decoder undoes the encoder: an operation is selected by its own selector value only. -/
theorem encode_of_decode_eq_ok {op : Selector} {i : Instr} (h : decode op = .ok i) :
    encode i = op := by
  revert op
  cases i <;> decide

/-- The decoder rejects 111 only, and names it. -/
theorem eq_reserved_of_decode_eq_error {op o : Selector}
    (h : decode op = .error (.reservedSelector o)) : op = 0b111 ∧ o = op := by
  revert op o
  decide

/-- FROM_REG's function gives one error only. -/
theorem fromRegister_eq_error {rule : TieRule} {n : Divisor} {x : Nat} {e : CodecError}
    (h : fromRegister rule n x = .error e) :
    e = .invalidConfig (.crystalUnsupported x) ∧ ¬SupportedCrystal x := by
  by_cases hxtal : SupportedCrystal x
  · rw [fromRegister_of_supported hxtal] at h
    cases h
  · rw [fromRegister_of_not_supportedCrystal hxtal] at h
    exact ⟨(Except.error.inj h).symm, hxtal⟩

/-- LOWER's function gives its validation's errors only: past the checks the frequency is in the
band, and the divisor is in range. -/
theorem checkConfig_eq_error_of_lowerConfig_eq_error {c : DeviceConfig} {e : CodecError}
    (h : lowerConfig c = .error e) : checkConfig c = .error e := by
  unfold lowerConfig at h
  cases hcheck : checkConfig c with
  | error e' =>
    rw [hcheck] at h
    rw [Except.error.inj h]
  | ok u =>
    obtain ⟨-, hxtal, hband⟩ := (checkConfig_eq_ok_iff c).1 hcheck
    obtain ⟨N, hN⟩ := exists_toRegister_eq_ok_of_inBand hxtal hband
    simp [hcheck, hN] at h

/-- The block raises the error `e` for the ports of `s`: the operation that `s` selects can raise
it, its cause is there, and the value it records is the operand's (R99 to R103). -/
def CodecError.RaisedBy (e : CodecError) (s : State) : Prop :=
  match e with
  | .invalidConfig .stopLevelNotAllowed => s.op = 0b010 ∧ s.cfgIn.searchStopLevel = 0
  | .invalidConfig (.crystalUnsupported x) =>
    ((s.op = 0b010 ∧ x = s.cfgIn.crystalFrequencyHz) ∨
      ((s.op = 0b011 ∨ s.op = 0b100) ∧ x = s.xtalIn)) ∧ ¬SupportedCrystal x
  | .frequencyOutOfBand f => s.op = 0b010 ∧ f = s.cfgIn.stationFrequencyMHz ∧ ¬InBand f
  | .divisorOutOfRange n =>
    s.op = 0b011 ∧ IsNearest .halfEven (forwardQuotient s.freqIn s.xtalIn) n ∧
      (n < 0 ∨ 16383 < n)
  | .illegalOperation op => s.op = 0b111 ∧ op = s.op

/-- An operation selected by its own selector value raises its errors: only LOWER, TO_REG and
FROM_REG have any. -/
theorem raisedBy_of_outcomeOf_eq_error {i : Instr} {s : State} {e : CodecError}
    (hop : encode i = s.op) (h : outcomeOf i s = .error e) : e.RaisedBy s := by
  cases i with
  | encode => cases h
  | decode => cases h
  | split => cases h
  | join => cases h
  | lower =>
    have hcheck := checkConfig_eq_error_of_lowerConfig_eq_error (except_map_eq_error.1 h)
    rcases checkConfig_eq_error hcheck with ⟨rfl, hlevel⟩ | ⟨rfl, hxtal⟩ | ⟨rfl, hband⟩
    · exact ⟨hop.symm, hlevel⟩
    · exact ⟨.inl ⟨hop.symm, rfl⟩, hxtal⟩
    · exact ⟨hop.symm, rfl, hband⟩
  | toReg =>
    rcases toRegister_eq_error (except_map_eq_error.1 h) with
      ⟨rfl, hxtal⟩ | ⟨n, rfl, hrange, -, hnear⟩
    · exact ⟨.inr ⟨.inl hop.symm, rfl⟩, hxtal⟩
    · exact ⟨hop.symm, hnear, hrange⟩
  | fromReg =>
    obtain ⟨rfl, hxtal⟩ := fromRegister_eq_error (except_map_eq_error.1 h)
    exact ⟨.inr ⟨.inr hop.symm, rfl⟩, hxtal⟩

/-- The selected outcome's error is one the ports raise, the reserved selector's too. -/
theorem raisedBy_of_outcomeOfSelector_eq_error {s : State} {e : CodecError}
    (h : outcomeOfSelector s = .error e) : e.RaisedBy s := by
  unfold outcomeOfSelector at h
  cases hdecode : decode s.selector with
  | ok i =>
    rw [hdecode] at h
    exact raisedBy_of_outcomeOf_eq_error (encode_of_decode_eq_ok hdecode) h
  | error d =>
    obtain ⟨o⟩ := d
    rw [hdecode] at h
    obtain rfl := Except.error.inj h
    exact eq_reserved_of_decode_eq_error hdecode

/-- Everything a step can do: drive the selected result, or report an error its ports raise. -/
theorem step_eq_next_cases {s t : State} (h : step s = .next t) :
    (∃ r, outcomeOfSelector s = .ok r ∧ t = s.withResult r) ∨
      ∃ e : CodecError, e.RaisedBy s ∧ t = s.withError e.code e := by
  rw [step_eq_finish, Host.Outcome.next.injEq] at h
  subst h
  rcases s.finish_cases (outcomeOfSelector s) with ⟨r, hok, hfinish⟩ | ⟨e, herror, hfinish⟩
  · exact .inl ⟨r, hok, hfinish⟩
  · exact .inr ⟨e, raisedBy_of_outcomeOfSelector_eq_error herror, hfinish⟩

/-- Settles O6: an error on the outputs is one the ports raise, with its own code, and no error has
a code above 4. -/
theorem errorCodes : Obligations.ErrorCodes := by
  intro s t hstep
  rcases step_eq_next_cases hstep with ⟨r, -, rfl⟩ | ⟨e, hraised, rfl⟩
  · exact ⟨Nat.zero_le 4, fun _ => rfl, nofun, nofun, nofun, nofun⟩
  · refine ⟨e.code_le_four, nofun, fun cause he => ?_, fun f he => ?_, fun n he => ?_,
      fun op he => ?_⟩ <;> obtain rfl := Option.some.inj he
    · refine ⟨rfl, ?_⟩
      cases cause with
      | stopLevelNotAllowed => exact hraised.left
      | crystalUnsupported x => exact hraised.left
    · obtain ⟨hop, hf, -⟩ := hraised
      exact ⟨rfl, hop, hf⟩
    · obtain ⟨hop, hnear, -⟩ := hraised
      exact ⟨rfl, hop, hnear⟩
    · exact ⟨rfl, hraised⟩

end Sys2Proof.Machine

/-! ## Rounding (00_scope.md) -/

namespace Sys2Proof.Machine

/-! ### What the nearest integer is -/

/-- Rounding gives the one integer its tie rule names. -/
theorem roundNearest_eq_iff {rule : TieRule} {q : Rat} {n : Int} :
    roundNearest rule q = n ↔ IsNearest rule q n :=
  ⟨fun h => h ▸ roundNearest_isNearest rule q, IsNearest.roundNearest_eq⟩

/-- Settles O17: every rounding function of the model is `roundNearest` by some rule. -/
theorem roundingGivesUniqueNearestInteger : Obligations.RoundingGivesUniqueNearestInteger := by
  refine ⟨fun _ _ _ => roundNearest_eq_iff, fun _ _ => roundNearest_eq_iff,
    fun _ _ => roundNearest_eq_iff, fun rule q n => ?_, fun rule q => ?_⟩
  · rw [roundInverse_eq, roundNearest_eq_iff]
  · exact ⟨roundNearest rule q, roundNearest_isNearest rule q,
      fun _ hm => hm.roundNearest_eq.symm⟩

/-! ### Distances -/

/-- An integer less than one half away is the nearest one, whatever the tie rule. -/
theorem roundNearest_eq_of_abs_lt {q : Rat} {n : Int} (h : |q - n| < 1 / 2) (rule : TieRule) :
    roundNearest rule q = n :=
  roundNearest_eq_iff.2 ⟨h.le, fun heq => absurd heq h.ne⟩

/-- Rounding moves a number by at most one half. -/
theorem abs_sub_roundNearest_le (rule : TieRule) (q : Rat) : |q - roundNearest rule q| ≤ 1 / 2 :=
  (roundNearest_isNearest rule q).left

/-- Only an exact half lets the tie rule decide. -/
theorem roundNearest_eq_of_no_tie {q : Rat} (h : ∀ n : Int, |q - n| ≠ 1 / 2)
    (rule rule' : TieRule) : roundNearest rule q = roundNearest rule' q :=
  roundNearest_eq_of_abs_lt ((abs_sub_roundNearest_le rule' q).lt_of_ne (h _)) rule

/-- Numbers more than one apart have different nearest integers in the same order. -/
theorem roundNearest_lt_of_add_one_lt (rule : TieRule) {p q : Rat} (h : p + 1 < q) :
    roundNearest rule p < roundNearest rule q := by
  obtain ⟨hp, -⟩ := abs_le.1 (abs_sub_roundNearest_le rule p)
  obtain ⟨-, hq⟩ := abs_le.1 (abs_sub_roundNearest_le rule q)
  have hlt : (roundNearest rule p : Rat) < roundNearest rule q := by linarith
  exact_mod_cast hlt

/-- Half to even reaches an even integer from one half below it on. -/
theorem le_roundNearest_halfEven_iff {q : Rat} {m : Int} (hm : m % 2 = 0) :
    m ≤ roundNearest .halfEven q ↔ (m : Rat) - 1 / 2 ≤ q := by
  obtain ⟨hdist, htie⟩ := roundNearest_isNearest .halfEven q
  obtain ⟨hlow, hhigh⟩ := abs_le.1 hdist
  constructor
  · intro h
    have hcast : (m : Rat) ≤ roundNearest .halfEven q := by exact_mod_cast h
    linarith
  · intro h
    by_contra hlt
    have hbelow : roundNearest .halfEven q ≤ m - 1 := by omega
    have hcast : (roundNearest .halfEven q : Rat) ≤ m - 1 := by exact_mod_cast hbelow
    have hhalf : q - roundNearest .halfEven q = 1 / 2 := by linarith
    have heven : roundNearest .halfEven q % 2 = 0 :=
      htie (by rw [hhalf]; norm_num)
    have heq : roundNearest .halfEven q = m - 1 := by
      have hge : (m - 1 : Rat) ≤ roundNearest .halfEven q := by linarith
      exact hbelow.antisymm (by exact_mod_cast hge)
    omega

end Sys2Proof.Machine

/-! ## The converter's range and its inverse (41_pll.md) -/

namespace Sys2Proof.Machine

/-! ### The divisors TO_REG gives (R85, R87, R93) -/

/-- The forward quotient is non-decreasing in the frequency. -/
theorem forwardQuotient_mono {f g : Rat} (x : Nat) (h : f ≤ g) :
    forwardQuotient f x ≤ forwardQuotient g x := by
  rw [forwardQuotient_eq, forwardQuotient_eq]
  gcongr

/-- A divisor TO_REG drives is the rounded forward quotient, for a supported crystal. -/
theorem exec_toReg_eq_divisor_iff_round {s : State} {N : Divisor} :
    exec .toReg s = .next (s.withResult (.divisor N)) ↔
      SupportedCrystal s.xtalIn ∧
        roundNearest .halfEven (forwardQuotient s.freqIn s.xtalIn) = (N.toNat : Int) :=
  exec_toReg_eq_divisor_iff.trans toRegister_eq_ok_iff

/-- TO_REG drives a divisor exactly if the rounded quotient fits 14 bits. -/
theorem exists_exec_toReg_eq_divisor_iff {s : State} (hxtal : SupportedCrystal s.xtalIn) :
    (∃ N : Divisor, exec .toReg s = .next (s.withResult (.divisor N))) ↔
      0 ≤ roundNearest .halfEven (forwardQuotient s.freqIn s.xtalIn) ∧
        ¬16384 ≤ roundNearest .halfEven (forwardQuotient s.freqIn s.xtalIn) := by
  simp only [exec_toReg_eq_divisor_iff_round, hxtal, true_and]
  constructor
  · rintro ⟨N, hN⟩
    have hlt := N.isLt
    omega
  · rintro ⟨hlow, hhigh⟩
    rcases fitDivisor_cases (roundNearest .halfEven (forwardQuotient s.freqIn s.xtalIn)) with
      ⟨N, hN, -⟩ | ⟨hrange, -⟩
    · exact ⟨N, hN⟩
    · omega

/-- The lower end of TO_REG's domain as a frequency. -/
theorem neg_half_le_forwardQuotient_iff {f : Rat} {x : Nat} (hxtal : SupportedCrystal x) :
    -(1 / 2) ≤ forwardQuotient f x ↔ -(225 / 1000) - (x : Rat) / 8000000 ≤ f := by
  rw [forwardQuotient_eq, le_div_iff₀ hxtal.pos]
  constructor <;> intro h <;> linarith

/-- Settles O19: both ends are thresholds of half to even at an even integer, 0 and 16384: the half
below 0 still rounds to it, and the half below 16384 already does. -/
theorem toRegDomain : Obligations.ToRegDomain := by
  intro s hxtal
  rw [exists_exec_toReg_eq_divisor_iff hxtal, le_roundNearest_halfEven_iff (by decide),
    le_roundNearest_halfEven_iff (by decide), ← neg_half_le_forwardQuotient_iff hxtal,
    ← forwardQuotient_eq, not_le]
  norm_num

/-- Settles O20: the quotient and the rounding are both monotone. -/
theorem toRegMonotone : Obligations.ToRegMonotone := by
  intro s t N M hx hf hN hM
  obtain ⟨-, hN⟩ := exec_toReg_eq_divisor_iff_round.1 hN
  obtain ⟨-, hM⟩ := exec_toReg_eq_divisor_iff_round.1 hM
  have hround := roundNearest_mono .halfEven (forwardQuotient_mono s.xtalIn hf)
  rw [hN, hx, hM] at hround
  exact_mod_cast hround

/-- At 32768 Hz a step of 0.1 MHz moves the quotient by more than 12. -/
theorem forwardQuotient_add_one_lt {f g : Rat} (h : f + 1 / 10 ≤ g) :
    forwardQuotient f 32768 + 1 < forwardQuotient g 32768 := by
  rw [forwardQuotient_eq, forwardQuotient_eq]
  push_cast
  linarith

/-- Settles O21: the quotients are more than one apart. -/
theorem toRegStrictOnGrid32768 : Obligations.ToRegStrictOnGrid32768 := by
  intro s t N M hs ht hf hN hM
  obtain ⟨-, hN⟩ := exec_toReg_eq_divisor_iff_round.1 hN
  obtain ⟨-, hM⟩ := exec_toReg_eq_divisor_iff_round.1 hM
  rw [hs] at hN
  rw [ht] at hM
  have hround := roundNearest_lt_of_add_one_lt .halfEven (forwardQuotient_add_one_lt hf)
  rw [hN, hM] at hround
  exact_mod_cast hround

/-! ### The divisors of the band (R95) -/

/-- R95's table: a crystal with its divisors at the two band edges. -/
def IsBandRow (x lo hi : Nat) : Prop :=
  (x, lo, hi) ∈ [(32768, 10709, 13199), (6500000, 54, 67), (13000000, 27, 33)]

/-- The table's rows, one by one. -/
theorem isBandRow_iff {x lo hi : Nat} :
    IsBandRow x lo hi ↔ (x = 32768 ∧ lo = 10709 ∧ hi = 13199) ∨
      (x = 6500000 ∧ lo = 54 ∧ hi = 67) ∨ (x = 13000000 ∧ lo = 27 ∧ hi = 33) := by
  simp [IsBandRow]

/-- A row's crystal is supported. -/
theorem IsBandRow.supportedCrystal {x lo hi : Nat} (h : IsBandRow x lo hi) :
    SupportedCrystal x := by
  rcases isBandRow_iff.1 h with ⟨rfl, -⟩ | ⟨rfl, -⟩ | ⟨rfl, -⟩ <;> decide

/-- Every supported crystal has a row, within 27 to 13199. -/
theorem SupportedCrystal.exists_isBandRow {x : Nat} (h : SupportedCrystal x) :
    ∃ lo hi, IsBandRow x lo hi ∧ 27 ≤ lo ∧ hi ≤ 13199 := by
  rcases h with rfl | rfl | rfl
  · exact ⟨10709, 13199, isBandRow_iff.2 (by decide), by decide, by decide⟩
  · exact ⟨54, 67, isBandRow_iff.2 (by decide), by decide, by decide⟩
  · exact ⟨27, 33, isBandRow_iff.2 (by decide), by decide, by decide⟩

/-- The rounded quotients at the two band edges are the row's. -/
theorem IsBandRow.roundNearest_edges {x lo hi : Nat} (h : IsBandRow x lo hi) :
    roundNearest .halfEven (forwardQuotient (875 / 10) x) = lo ∧
      roundNearest .halfEven (forwardQuotient (1079 / 10) x) = hi := by
  rcases isBandRow_iff.1 h with ⟨rfl, rfl, rfl⟩ | ⟨rfl, rfl, rfl⟩ | ⟨rfl, rfl, rfl⟩ <;>
    refine ⟨roundNearest_eq_of_abs_lt ?_ _, roundNearest_eq_of_abs_lt ?_ _⟩ <;>
    rw [forwardQuotient_eq, abs_lt] <;> norm_num

/-- A band frequency's divisor lies between the divisors at the band's edges. -/
theorem IsBandRow.divisor_bounds {x lo hi : Nat} {f : Rat} {N : Divisor} (h : IsBandRow x lo hi)
    (hband : InBand f) (hN : toRegister f x = .ok N) : lo ≤ N.toNat ∧ N.toNat ≤ hi := by
  obtain ⟨-, hround⟩ := toRegister_eq_ok_iff.1 hN
  obtain ⟨hmin, hmax⟩ := h.roundNearest_edges
  have hlow := roundNearest_mono .halfEven (forwardQuotient_mono x hband.left)
  have hhigh := roundNearest_mono .halfEven (forwardQuotient_mono x hband.right)
  omega

/-- Settles O22: rounding is monotone, so the values at the edges bound the ones between. -/
theorem inBandDivisorRanges : Obligations.InBandDivisorRanges := by
  intro s lo hi hband hrow
  have hrow : IsBandRow s.xtalIn lo hi := hrow
  obtain ⟨N, hN⟩ := exists_toRegister_eq_ok_of_inBand hrow.supportedCrystal hband
  obtain ⟨-, hround⟩ := toRegister_eq_ok_iff.1 hN
  obtain ⟨hmin, hmax⟩ := hrow.roundNearest_edges
  obtain ⟨hlow, hhigh⟩ := hrow.divisor_bounds hband hN
  refine ⟨N, exec_toReg_eq_divisor_iff.2 hN, hlow, hhigh, fun hf => ?_, fun hf => ?_⟩ <;>
    rw [hf] at hround <;> omega

/-! ### Ties of the inverse (R89) -/

/-- An exact half of the inverse quotient is an equation between integers. -/
theorem mul_xtal_eq_of_inverseQuotient_tie {n : Divisor} {x : Nat} {d : Int}
    (h : |inverseQuotient n x - d| = 1 / 2) :
    (n.toNat : Int) * x = 400000 * d + 1100000 ∨ (n.toNat : Int) * x = 400000 * d + 700000 := by
  rw [inverseQuotient_eq, abs_eq (by norm_num)] at h
  have hcases : (n.toNat : Rat) * x = 400000 * d + 1100000 ∨
      (n.toNat : Rat) * x = 400000 * d + 700000 := h.imp (by intro; linarith) (by intro; linarith)
  exact_mod_cast hcases

/-- Away from the divisors n = 4m + 3 at 6.5 MHz there is no exact half: at the other crystals the
parities of the two sides differ. -/
theorem inverseQuotient_no_tie {n : Divisor} {x : Nat} (hxtal : SupportedCrystal x)
    (hn : ¬(x = 6500000 ∧ n.toNat % 4 = 3)) (d : Int) : |inverseQuotient n x - d| ≠ 1 / 2 := by
  intro htie
  have heq := mul_xtal_eq_of_inverseQuotient_tie htie
  rcases hxtal with rfl | rfl | rfl <;> push_cast at heq <;> omega

/-- FROM_REG's answer for a supported crystal under a given tie rule. -/
theorem exec_fromReg_of_rule {s : State} (hxtal : SupportedCrystal s.xtalIn) (rule : TieRule) :
    exec .fromReg { s with inverseTieRule := rule } =
      .next (State.withResult { s with inverseTieRule := rule }
        (.tenths (roundNearest rule (inverseQuotient s.nIn s.xtalIn)))) :=
  exec_fromReg_eq_tenths_iff.2 (fromRegister_of_supported hxtal rule s.nIn)

/-- At 6.5 MHz the divisor 4m + 3 is an exact half. -/
theorem inverseQuotient_tie {n : Divisor} {m : Nat} (hn : n.toNat = 4 * m + 3) :
    inverseQuotient n 6500000 = 65 * m + 93 / 2 := by
  rw [inverseQuotient_eq, hn]
  push_cast
  ring

/-- Half up takes the upper integer at the exact half. -/
theorem roundNearest_halfUp_tie (k : Int) : roundNearest .halfUp (k + 1 / 2) = k + 1 := by
  rw [roundNearest_eq_iff, IsNearest]
  push_cast
  rw [show (k + 1 / 2 - (k + 1) : Rat) = -(1 / 2) by ring, abs_neg]
  exact ⟨by norm_num, fun _ => by linarith⟩

/-- Half to even takes the even one of the two integers at the exact half. -/
theorem roundNearest_halfEven_tie (k : Int) :
    roundNearest .halfEven (k + 1 / 2) = if k % 2 = 0 then k else k + 1 := by
  rw [roundNearest_eq_iff, IsNearest]
  split
  · rw [add_sub_cancel_left]
    exact ⟨by norm_num, fun _ => by assumption⟩
  · push_cast
    rw [show (k + 1 / 2 - (k + 1) : Rat) = -(1 / 2) by ring, abs_neg]
    exact ⟨by norm_num, fun _ => by omega⟩

/-- Settles O24: without an exact half the rules agree; at 4m + 3 the half is above 65m + 46, which
is even exactly if m is. -/
theorem fromRegTies : Obligations.FromRegTies := by
  refine ⟨fun s hxtal hn => ?_, fun s m hx hn => ?_⟩
  · refine ⟨roundNearest .halfUp (inverseQuotient s.nIn s.xtalIn), fun rule => ?_⟩
    rw [roundNearest_eq_of_no_tie (inverseQuotient_no_tie hxtal hn) .halfUp rule]
    exact exec_fromReg_of_rule hxtal rule
  · have hxtal : SupportedCrystal s.xtalIn := .inr (.inl hx)
    have hquot : inverseQuotient s.nIn s.xtalIn = ((65 * m + 46 : Int) : Rat) + 1 / 2 := by
      rw [hx, inverseQuotient_tie hn]
      push_cast
      ring
    have hup := exec_fromReg_of_rule hxtal .halfUp
    have heven := exec_fromReg_of_rule hxtal .halfEven
    rw [hquot, roundNearest_halfUp_tie] at hup
    rw [hquot, roundNearest_halfEven_tie] at heven
    have hparity : (65 * m + 46 : Int) % 2 = 0 ↔ m % 2 = 0 := by omega
    simp only [hparity] at heven
    exact ⟨hup, heven⟩

/-! ### The inverse law (R94) -/

/-- A frequency's divisor converts back, before rounding, to within half a divisor step of it. -/
theorem abs_inverseQuotient_sub_le {f : Rat} {x : Nat} {N : Divisor}
    (hN : toRegister f x = .ok N) : |inverseQuotient N x - 10 * f| ≤ (x : Rat) / 800000 := by
  obtain ⟨hxtal, hround⟩ := toRegister_eq_ok_iff.1 hN
  have hx := hxtal.pos
  have hdist := abs_sub_roundNearest_le .halfEven (forwardQuotient f x)
  rw [hround, Int.cast_natCast] at hdist
  have hscale : inverseQuotient N x - 10 * f =
      (x : Rat) / 400000 * (N.toNat - forwardQuotient f x) := by
    rw [inverseQuotient_eq, forwardQuotient_eq]
    field_simp
    ring
  calc |inverseQuotient N x - 10 * f|
      = (x : Rat) / 400000 * |forwardQuotient f x - N.toNat| := by
        rw [hscale, abs_mul, abs_of_pos (by positivity), abs_sub_comm]
    _ ≤ (x : Rat) / 400000 * (1 / 2) := by gcongr
    _ = (x : Rat) / 800000 := by ring

/-- FROM_REG's answer on a divisor, for a supported crystal. -/
theorem exec_fromReg_of_divisor {s : State} (hxtal : SupportedCrystal s.xtalIn) (N : Divisor) :
    exec .fromReg { s with nIn := N } =
      .next (State.withResult { s with nIn := N }
        (.tenths (roundNearest s.inverseTieRule (inverseQuotient N s.xtalIn)))) :=
  exec_fromReg_eq_tenths_iff.2 (fromRegister_of_supported hxtal s.inverseTieRule N)

/-- Settles O25: half a divisor step, and half a unit of 0.1 MHz from the rounding. -/
theorem inverseLaw : Obligations.InverseLaw := by
  intro s N hexec
  have hN := exec_toReg_eq_divisor_iff.1 hexec
  obtain ⟨hxtal, -⟩ := toRegister_eq_ok_iff.1 hN
  refine ⟨_, exec_fromReg_of_divisor hxtal N, ?_⟩
  have hstep := abs_le.1 (abs_inverseQuotient_sub_le hN)
  have hround := abs_le.1
    (abs_sub_roundNearest_le s.inverseTieRule (inverseQuotient N s.xtalIn))
  rw [abs_le]
  constructor <;> linarith

/-- Settles O26: at 32768 Hz half a divisor step is 0.04 units of 0.1 MHz, so rounding gives the
grid frequency back. -/
theorem inverseExactOnGrid32768 : Obligations.InverseExactOnGrid32768 := by
  intro s k N hx hf hexec
  have hN := exec_toReg_eq_divisor_iff.1 hexec
  have hstep := abs_inverseQuotient_sub_le hN
  rw [hf, mul_div_cancel₀ _ (by norm_num), hx] at hstep
  have hnear : |inverseQuotient N s.xtalIn - k| < 1 / 2 := by
    rw [hx]
    exact hstep.trans_lt (by norm_num)
  have hback := exec_fromReg_of_divisor (s := s) (.inl hx) N
  rwa [roundNearest_eq_of_abs_lt hnear] at hback

/-! ### SPLIT and JOIN (R90, R91) -/

/-- Joining a divisor's parts gives it back. -/
theorem joinDivisor_splitDivisor (n : Divisor) :
    joinDivisor (splitDivisor n).1 (splitDivisor n).2 = n := by
  apply BitVec.eq_of_toNat_eq
  rw [joinDivisor_toNat, splitDivisor_fst_toNat, splitDivisor_snd_toNat]
  omega

/-- Splitting a joined pair gives it back. -/
theorem splitDivisor_joinDivisor (u : UpperPart) (l : LowerPart) :
    splitDivisor (joinDivisor u l) = (u, l) := by
  have hl := l.isLt
  refine Prod.ext (BitVec.eq_of_toNat_eq ?_) (BitVec.eq_of_toNat_eq ?_)
  · rw [splitDivisor_fst_toNat, joinDivisor_toNat]
    dsimp only
    omega
  · rw [splitDivisor_snd_toNat, joinDivisor_toNat]
    dsimp only
    omega

/-- SPLIT drives the parts of its divisor and nothing else. -/
theorem exec_split_eq_parts_iff {s : State} {u : UpperPart} {l : LowerPart} :
    exec .split s = .next (s.withResult (.parts u l)) ↔ splitDivisor s.nIn = (u, l) := by
  rw [exec_eq_finish, Host.Outcome.next.injEq, State.finish_eq_withResult, Prod.ext_iff]
  simp [outcomeOf]

/-- JOIN drives the joined pair and nothing else. -/
theorem exec_join_eq_divisor_iff {s : State} {N : Divisor} :
    exec .join s = .next (s.withResult (.divisor N)) ↔ joinDivisor s.upperIn s.lowerIn = N := by
  rw [exec_eq_finish, Host.Outcome.next.injEq, State.finish_eq_withResult]
  simp [outcomeOf]

/-- Settles O28: the two functions are inverse to each other. -/
theorem splitJoinInverse : Obligations.SplitJoinInverse := by
  refine ⟨fun s u l hsplit => ?_, fun s N hjoin => ?_⟩
  · have hparts := exec_split_eq_parts_iff.1 hsplit
    refine exec_join_eq_divisor_iff.2 ?_
    have hback := joinDivisor_splitDivisor s.nIn
    rwa [hparts] at hback
  · obtain rfl := exec_join_eq_divisor_iff.1 hjoin
    exact exec_split_eq_parts_iff.2 (splitDivisor_joinDivisor s.upperIn s.lowerIn)

end Sys2Proof.Machine

/-! ## Images and frames, statuses and frames (30_encoding.md, 40_codec.md) -/

namespace Sys2Proof.Machine

/-- Frames with the same five bytes are the same. -/
theorem Frame.eq_of_bytes_eq {f g : Frame} (h0 : f.b0 = g.b0) (h1 : f.b1 = g.b1)
    (h2 : f.b2 = g.b2) (h3 : f.b3 = g.b3) (h4 : f.b4 = g.b4) : f = g := by
  cases f
  simp only at h0 h1 h2 h3 h4
  subst h0 h1 h2 h3 h4
  rfl

/-! ### The image a write frame carries (R52 to R56) -/

/-- The fields of a write frame read at their places: what undoes ENCODE. -/
def imageOfFrame (f : Frame) : WriteImage where
  mute := bitOf f.b0 7
  searchMode := bitOf f.b0 6
  upperFreq := f.b0.extractLsb' 0 6
  lowerFreq := f.b1
  searchDirection := bitOf f.b2 7
  searchStopLevel := f.b2.extractLsb' 5 2
  injectionSide := bitOf f.b2 4
  forcedMono := bitOf f.b2 3
  muteRight := bitOf f.b2 2
  muteLeft := bitOf f.b2 1
  softwarePort1 := bitOf f.b2 0
  softwarePort2 := bitOf f.b3 7
  standby := bitOf f.b3 6
  japaneseBand := bitOf f.b3 5
  xtalSelect := bitOf f.b3 4
  softMute := bitOf f.b3 3
  highCutControl := bitOf f.b3 2
  stereoNoiseCanceling := bitOf f.b3 1
  softwarePort1Ready := bitOf f.b3 0
  pllRefSelect := bitOf f.b4 7
  deEmphasis75us := bitOf f.b4 6

/-- A slice is the field whose value it has. -/
theorem extractLsb'_eq_of_toNat {b : Byte} {k width : Nat} {field : BitVec width}
    (h : b.toNat / 2 ^ k % 2 ^ width = field.toNat) : b.extractLsb' k width = field :=
  BitVec.eq_of_toNat_eq ((extractLsb'_toNat_eq_div_mod b k width).trans h)

/-- A bit is the 1-bit field whose value it has. -/
theorem bitOf_eq_of_toNat {b : Byte} {k : Nat} {x : Bit} (h : b.toNat / 2 ^ k % 2 = x.toNat) :
    bitOf b k = x :=
  extractLsb'_eq_of_toNat h

section
variable (w : WriteImage)

/-- R52: byte 0's fields stand at their places. -/
theorem slices_encodeFrame_b0 :
    bitOf (encodeFrame w).b0 7 = w.mute ∧ bitOf (encodeFrame w).b0 6 = w.searchMode ∧
      (encodeFrame w).b0.extractLsb' 0 6 = w.upperFreq := by
  have hb := encodeFrame_b0_toNat w
  refine ⟨bitOf_eq_of_toNat ?_, bitOf_eq_of_toNat ?_, extractLsb'_eq_of_toNat ?_⟩ <;> omega

/-- R54: byte 2's fields stand at their places. -/
theorem slices_encodeFrame_b2 :
    bitOf (encodeFrame w).b2 7 = w.searchDirection ∧
      (encodeFrame w).b2.extractLsb' 5 2 = w.searchStopLevel ∧
      bitOf (encodeFrame w).b2 4 = w.injectionSide ∧ bitOf (encodeFrame w).b2 3 = w.forcedMono ∧
      bitOf (encodeFrame w).b2 2 = w.muteRight ∧ bitOf (encodeFrame w).b2 1 = w.muteLeft ∧
      bitOf (encodeFrame w).b2 0 = w.softwarePort1 := by
  have hb := encodeFrame_b2_toNat w
  refine ⟨bitOf_eq_of_toNat ?_, extractLsb'_eq_of_toNat ?_, bitOf_eq_of_toNat ?_,
    bitOf_eq_of_toNat ?_, bitOf_eq_of_toNat ?_, bitOf_eq_of_toNat ?_,
    bitOf_eq_of_toNat ?_⟩ <;> omega

/-- R55: byte 3's fields stand at their places. -/
theorem slices_encodeFrame_b3 :
    bitOf (encodeFrame w).b3 7 = w.softwarePort2 ∧ bitOf (encodeFrame w).b3 6 = w.standby ∧
      bitOf (encodeFrame w).b3 5 = w.japaneseBand ∧ bitOf (encodeFrame w).b3 4 = w.xtalSelect ∧
      bitOf (encodeFrame w).b3 3 = w.softMute ∧ bitOf (encodeFrame w).b3 2 = w.highCutControl ∧
      bitOf (encodeFrame w).b3 1 = w.stereoNoiseCanceling ∧
      bitOf (encodeFrame w).b3 0 = w.softwarePort1Ready := by
  have hb := encodeFrame_b3_toNat w
  refine ⟨bitOf_eq_of_toNat ?_, bitOf_eq_of_toNat ?_, bitOf_eq_of_toNat ?_,
    bitOf_eq_of_toNat ?_, bitOf_eq_of_toNat ?_, bitOf_eq_of_toNat ?_, bitOf_eq_of_toNat ?_,
    bitOf_eq_of_toNat ?_⟩ <;> omega

/-- R56: byte 4's fields stand at their places. -/
theorem slices_encodeFrame_b4 :
    bitOf (encodeFrame w).b4 7 = w.pllRefSelect ∧
      bitOf (encodeFrame w).b4 6 = w.deEmphasis75us := by
  have hb := encodeFrame_b4_toNat w
  refine ⟨bitOf_eq_of_toNat ?_, bitOf_eq_of_toNat ?_⟩ <;> omega

/-- Every field is found again at its place. -/
theorem imageOfFrame_encodeFrame : imageOfFrame (encodeFrame w) = w := by
  simp only [imageOfFrame, slices_encodeFrame_b0, encodeFrame_b1, slices_encodeFrame_b2,
    slices_encodeFrame_b3, slices_encodeFrame_b4]

end

/-- A frame whose byte 4 has zeros below its two fields is all fields. -/
theorem encodeFrame_imageOfFrame {f : Frame} (h : f.b4.toNat % 64 = 0) :
    encodeFrame (imageOfFrame f) = f := by
  refine Frame.eq_of_bytes_eq (BitVec.eq_of_toNat_eq ?_) rfl (BitVec.eq_of_toNat_eq ?_)
    (BitVec.eq_of_toNat_eq ?_) (BitVec.eq_of_toNat_eq ?_)
  · rw [encodeFrame_b0_toNat]
    simp only [imageOfFrame, bitOf, extractLsb'_toNat_eq_div_mod]
    omega
  · rw [encodeFrame_b2_toNat]
    simp only [imageOfFrame, bitOf, extractLsb'_toNat_eq_div_mod]
    omega
  · rw [encodeFrame_b3_toNat]
    simp only [imageOfFrame, bitOf, extractLsb'_toNat_eq_div_mod]
    omega
  · rw [encodeFrame_b4_toNat]
    simp only [imageOfFrame, bitOf, extractLsb'_toNat_eq_div_mod]
    omega

/-- R56: ENCODE leaves byte 4's low six bits zero. -/
theorem encodeFrame_b4_mod (w : WriteImage) : (encodeFrame w).b4.toNat % 64 = 0 := by
  rw [encodeFrame_b4_toNat]
  omega

/-- ENCODE drives the frame of its image and nothing else. -/
theorem exec_encode_eq_frame_iff {s : State} {f : Frame} :
    exec .encode s = .next (s.withResult (.frame f)) ↔ encodeFrame s.imgIn = f := by
  rw [exec_eq_finish, Host.Outcome.next.injEq, State.finish_eq_withResult]
  simp [outcomeOf]

/-- Settles O9: the image can be read back from the frame. -/
theorem encodeInjective : Obligations.EncodeInjective := by
  intro s t f hs ht
  have hframe := (exec_encode_eq_frame_iff.1 hs).trans (exec_encode_eq_frame_iff.1 ht).symm
  exact Function.LeftInverse.injective imageOfFrame_encodeFrame hframe

/-- Settles O10: a frame of that form is ENCODE's for the image read back from it. -/
theorem encodeReachesEveryWriteFrame : Obligations.EncodeReachesEveryWriteFrame := by
  refine fun s f => ⟨fun ⟨w, hw⟩ => ?_, fun hzeros => ⟨imageOfFrame f, ?_⟩⟩
  · obtain rfl := exec_encode_eq_frame_iff.1 hw
    exact encodeFrame_b4_mod w
  · exact exec_encode_eq_frame_iff.2 (encodeFrame_imageOfFrame hzeros)

/-- Settles O8: each frame is computed from its image. -/
theorem encodeSourceExamples : Obligations.EncodeSourceExamples := by
  refine fun s => ⟨fun himg => ?_, fun himg => ?_, fun himg => ?_⟩ <;>
    refine exec_encode_eq_frame_iff.2 ?_ <;> rw [himg] <;> rfl

/-! ### The frames of a status (R58 to R62, R82) -/

/-- A bit read as a boolean keeps its value. -/
@[simp] theorem bool_toNat (x : Bit) : (bool x).toNat = x.toNat := by
  revert x
  decide

/-- A boolean's value decides it. -/
theorem bool_toNat_inj {a b : Bool} : a.toNat = b.toNat ↔ a = b := by
  revert a b
  decide

/-- A status is decided by the values of its fields. -/
theorem DeviceStatus.eq_iff_toNat {a b : DeviceStatus} :
    a = b ↔ a.ready.toNat = b.ready.toNat ∧
      a.bandLimitReached.toNat = b.bandLimitReached.toNat ∧
      a.frequencyRegister.toNat = b.frequencyRegister.toNat ∧
      a.stereo.toNat = b.stereo.toNat ∧ a.ifCounter.toNat = b.ifCounter.toNat ∧
      a.signalLevel.toNat = b.signalLevel.toNat ∧ a.chipId.toNat = b.chipId.toNat := by
  cases a
  cases b
  simp only [DeviceStatus.mk.injEq, BitVec.toNat_inj, bool_toNat_inj]

section
variable (f : Frame)

/-- R58: bit 7 of byte 0. -/
theorem decodeFrame_ready_toNat : (decodeFrame f).ready.toNat = f.b0.toNat / 128 % 2 :=
  (bool_toNat _).trans (extractLsb'_toNat_eq_div_mod _ _ _)

/-- R58: bit 6 of byte 0. -/
theorem decodeFrame_bandLimitReached_toNat :
    (decodeFrame f).bandLimitReached.toNat = f.b0.toNat / 64 % 2 :=
  (bool_toNat _).trans (extractLsb'_toNat_eq_div_mod _ _ _)

/-- R60: bit 7 of byte 2. -/
theorem decodeFrame_stereo_toNat : (decodeFrame f).stereo.toNat = f.b2.toNat / 128 % 2 :=
  (bool_toNat _).trans (extractLsb'_toNat_eq_div_mod _ _ _)

end

/-- The frames of a status: their bytes are its fields at their places, byte 3 down to bit 1. -/
theorem decodeFrame_eq_iff {f : Frame} {st : DeviceStatus} :
    decodeFrame f = st ↔
      f.b0.toNat = 128 * st.ready.toNat + 64 * st.bandLimitReached.toNat +
        st.frequencyRegister.toNat / 256 ∧
      f.b1.toNat = st.frequencyRegister.toNat % 256 ∧
      f.b2.toNat = 128 * st.stereo.toNat + st.ifCounter.toNat ∧
      f.b3.toNat / 2 = 8 * st.signalLevel.toNat + st.chipId.toNat := by
  have hready := st.ready.toNat_le
  have hband := st.bandLimitReached.toNat_le
  have hstereo := st.stereo.toNat_le
  rw [DeviceStatus.eq_iff_toNat, decodeFrame_ready_toNat, decodeFrame_bandLimitReached_toNat,
    decodeFrame_frequencyRegister_toNat, decodeFrame_stereo_toNat, decodeFrame_ifCounter_toNat,
    decodeFrame_signalLevel_toNat, decodeFrame_chipId_toNat]
  constructor
  · rintro ⟨hb7, hb6, hfreq, hs, hif, hsignal, hchip⟩
    refine ⟨?_, ?_, ?_, ?_⟩ <;> omega
  · rintro ⟨h0, h1, h2, h3⟩
    refine ⟨?_, ?_, ?_, ?_, ?_, ?_, ?_⟩ <;> omega

/-- A byte's bit 0 is its parity. -/
theorem getLsbD_zero_eq_iff {b : Byte} {x : Bool} : b.getLsbD 0 = x ↔ b.toNat % 2 = x.toNat := by
  rw [BitVec.getLsbD, Nat.testBit_zero]
  cases x <;> simp

/-- The frame of a status with the given ignored bits. -/
def frameOfStatus (st : DeviceStatus) (b3bit0 : Bool) (b4 : Byte) : Frame where
  b0 := BitVec.ofNat 8 (128 * st.ready.toNat + 64 * st.bandLimitReached.toNat +
    st.frequencyRegister.toNat / 256)
  b1 := BitVec.ofNat 8 st.frequencyRegister.toNat
  b2 := BitVec.ofNat 8 (128 * st.stereo.toNat + st.ifCounter.toNat)
  b3 := BitVec.ofNat 8 (16 * st.signalLevel.toNat + 2 * st.chipId.toNat + b3bit0.toNat)
  b4 := b4

section
variable (st : DeviceStatus) (b3bit0 : Bool) (b4 : Byte)

/-- DECODE reads the status back. -/
theorem decodeFrame_frameOfStatus : decodeFrame (frameOfStatus st b3bit0 b4) = st := by
  have hready := st.ready.toNat_le
  have hband := st.bandLimitReached.toNat_le
  have hstereo := st.stereo.toNat_le
  have hbit := b3bit0.toNat_le
  refine decodeFrame_eq_iff.2 ⟨?_, BitVec.toNat_ofNat _ _, ?_, ?_⟩ <;>
    rw [frameOfStatus, BitVec.toNat_ofNat] <;> omega

/-- The ignored bit of byte 3 is the given one. -/
theorem frameOfStatus_b3_getLsbD_zero : (frameOfStatus st b3bit0 b4).b3.getLsbD 0 = b3bit0 := by
  have hbit := b3bit0.toNat_le
  rw [getLsbD_zero_eq_iff, frameOfStatus, BitVec.toNat_ofNat]
  omega

end

/-- Frames with one status and the same ignored bits are the same: DECODE reads every other bit. -/
theorem eq_of_decodeFrame_eq {f g : Frame} (hstatus : decodeFrame f = decodeFrame g)
    (hbit : f.b3.getLsbD 0 = g.b3.getLsbD 0) (h4 : f.b4 = g.b4) : f = g := by
  obtain ⟨f0, f1, f2, f3⟩ := decodeFrame_eq_iff.1 hstatus
  obtain ⟨g0, g1, g2, g3⟩ := decodeFrame_eq_iff.1 (rfl : decodeFrame g = decodeFrame g)
  have hparity := getLsbD_zero_eq_iff.1 hbit
  rw [← getLsbD_zero_eq_iff.1 (rfl : g.b3.getLsbD 0 = g.b3.getLsbD 0)] at hparity
  refine Frame.eq_of_bytes_eq (BitVec.eq_of_toNat_eq ?_) (BitVec.eq_of_toNat_eq ?_)
    (BitVec.eq_of_toNat_eq ?_) (BitVec.eq_of_toNat_eq ?_) h4 <;> omega

/-- DECODE drives the status of its frame and nothing else. -/
theorem exec_decode_eq_status_iff {s : State} {st : DeviceStatus} :
    exec .decode s = .next (s.withResult (.status st)) ↔ decodeFrame s.frameIn = st := by
  rw [exec_eq_finish, Host.Outcome.next.injEq, State.finish_eq_withResult]
  simp [outcomeOf]

/-- Settles O13: `frameOfStatus` is the one frame. -/
theorem decodeOneFramePerIgnoredBits : Obligations.DecodeOneFramePerIgnoredBits := by
  intro s st b3bit0 b4
  have hbit := frameOfStatus_b3_getLsbD_zero st b3bit0 b4
  have hstatus := decodeFrame_frameOfStatus st b3bit0 b4
  refine ⟨frameOfStatus st b3bit0 b4, ⟨hbit, rfl, exec_decode_eq_status_iff.2 hstatus⟩, ?_⟩
  rintro f ⟨hfbit, hf4, hf⟩
  exact eq_of_decodeFrame_eq ((exec_decode_eq_status_iff.1 hf).trans hstatus.symm)
    (hfbit.trans hbit.symm) hf4

/-! ### LOWER's domain (R76, R115) -/

/-- The caller's checks before a usable write frame are LOWER's. -/
theorem configWellFormed_iff (c : DeviceConfig) :
    configWellFormed c = true ↔ c.searchStopLevel ≠ 0 ∧ SupportedCrystal c.crystalFrequencyHz ∧
      InBand c.stationFrequencyMHz := by
  rw [configWellFormed, Bool.and_eq_true, Bool.and_eq_true, and_assoc, stopLevelOk, bne_iff_ne,
    ← crystalSupported_iff, ← inBand_iff]
  rfl

/-- Settles O15: past its checks LOWER always finds a divisor. -/
theorem lowerAcceptsExactlyWellFormedConfigs :
    Obligations.LowerAcceptsExactlyWellFormedConfigs := by
  intro s
  rw [configWellFormed_iff]
  constructor
  · rintro ⟨w, hw⟩
    obtain ⟨hcheck, -⟩ := (lowerConfig_eq_ok_iff _ _).1 (exec_lower_eq_image_iff.1 hw)
    exact (checkConfig_eq_ok_iff _).1 hcheck
  · rintro ⟨hlevel, hxtal, hband⟩
    obtain ⟨N, -, hexec⟩ := exists_exec_lower_eq_imageOf hlevel hxtal hband
    exact ⟨_, hexec⟩

/-- Settles O41: `tune` checks the band alone, and LOWER checks nothing else of the config than the
stop level, the crystal and the band. -/
theorem tunedConfigLowers : Obligations.TunedConfigLowers := by
  refine fun c f => ⟨fun hband => ?_, fun hband => ?_, fun hband hlevel hxtal s hs => ?_⟩
  · rw [DeviceConfig.tune, if_neg ((inBand_iff f).not.2 hband)]
  · rw [DeviceConfig.tune, if_pos ((inBand_iff f).2 hband)]
  · refine (lowerAcceptsExactlyWellFormedConfigs s).2 ((configWellFormed_iff _).2 ?_)
    rw [hs]
    exact ⟨hlevel, hxtal, hband⟩

/-! ### The round trip (40_codec.md section 4) -/

/-- Reading an encoded image as a status finds the image's register pair. -/
theorem decodeFrame_encodeFrame_frequencyRegister_toNat (w : WriteImage) :
    (decodeFrame (encodeFrame w)).frequencyRegister.toNat =
      w.upperFreq.toNat * 256 + w.lowerFreq.toNat := by
  rw [decodeFrame_frequencyRegister_toNat, encodeFrame_b0_toNat, encodeFrame_b1]
  omega

/-- Settles O29: the image's pair, which the read frame's divisor joins again, is TO_REG's divisor
split. -/
theorem roundTripDivisor : Obligations.RoundTripDivisor := by
  intro s w hlower
  obtain ⟨-, N, hN, rfl⟩ := (lowerConfig_eq_ok_iff _ _).1 (exec_lower_eq_image_iff.1 hlower)
  have hpair := decodeFrame_encodeFrame_frequencyRegister_toNat (imageOf s.cfgIn N)
  have hregister : (decodeFrame (encodeFrame (imageOf s.cfgIn N))).frequencyRegister = N :=
    BitVec.eq_of_toNat_eq (hpair.trans (imageOf_divisor_toNat s.cfgIn N))
  refine ⟨_, _, exec_encode_eq_frame_iff.2 rfl, exec_decode_eq_status_iff.2 rfl, hpair, ?_⟩
  rw [hregister]
  exact exec_toReg_eq_divisor_iff.2 hN

end Sys2Proof.Machine

/-! ## The operation map (30_encoding.md) -/

namespace Sys2Proof.Machine

/-- The encoder's value of an operation decodes to it. -/
theorem decode_encode (i : Instr) : decode (encode i) = .ok i := by
  cases i with
  | encode => exact Laws.SelectorRoundTrip.encode.right
  | decode => exact Laws.SelectorRoundTrip.decode.right
  | lower => exact Laws.SelectorRoundTrip.lower.right
  | toReg => exact Laws.SelectorRoundTrip.toReg.right
  | fromReg => exact Laws.SelectorRoundTrip.fromReg.right
  | split => exact Laws.SelectorRoundTrip.split.right
  | join => exact Laws.SelectorRoundTrip.join.right

/-- A step at an operation's selector value is that operation. -/
theorem step_of_op_eq_encode {s : State} {i : Instr} (h : s.op = encode i) : step s = exec i s :=
  step_of_decode_eq_ok (h ▸ decode_encode i)

/-- Settles O2: the seven rows are the encoder's values, and 111 is left. -/
theorem selectorMap : Obligations.SelectorMap :=
  ⟨decode_encode .encode, decode_encode .decode, decode_encode .lower, decode_encode .toReg,
    decode_encode .fromReg, decode_encode .split, decode_encode .join, rfl⟩

/-- Settles O3. -/
theorem selectorDecodeEncodeAgree : Obligations.SelectorDecodeEncodeAgree :=
  ⟨fun i _ => decode_encode i, fun _ _ => encode_of_decode_eq_ok⟩

end Sys2Proof.Machine

/-! ## What a step and a run leave on the ports (20_memory.md, 60_exceptions.md, 70) -/

namespace Sys2Proof.Machine

/-! ### The range of each result (R56, R68, R73, R88, R95) -/

/-- The inverse quotient of a supported crystal lies between the least divisor's, whatever the
crystal, and the greatest one's at 13 MHz. -/
theorem inverseQuotient_bounds (n : Divisor) {x : Nat} (hxtal : SupportedCrystal x) :
    -(9 / 4) ≤ inverseQuotient n x ∧ inverseQuotient n x ≤ 53244525 / 100 := by
  have hx : x ≤ 13000000 := by rcases hxtal with rfl | rfl | rfl <;> decide
  have hn : n.toNat ≤ 16383 := Nat.le_of_lt_succ n.isLt
  have hprod : (n.toNat : Rat) * x ≤ 16383 * 13000000 := by exact_mod_cast Nat.mul_le_mul hn hx
  have hnonneg : (0 : Rat) ≤ (n.toNat : Rat) * x := by positivity
  rw [inverseQuotient_eq]
  constructor <;> linarith

/-- R88: FROM_REG's results. -/
theorem fromRegister_bounds {rule : TieRule} {n : Divisor} {x : Nat} {d : Int}
    (h : fromRegister rule n x = .ok d) : -2 ≤ d ∧ d ≤ 532445 := by
  have hxtal : SupportedCrystal x := by
    by_contra hrefused
    rw [fromRegister_of_not_supportedCrystal hrefused] at h
    cases h
  rw [fromRegister_of_supported hxtal] at h
  obtain rfl := Except.ok.inj h
  obtain ⟨hmin, hmax⟩ := inverseQuotient_bounds n hxtal
  obtain ⟨hbelow, habove⟩ := abs_le.1 (abs_sub_roundNearest_le rule (inverseQuotient n x))
  have hlow : (-3 : Rat) < roundNearest rule (inverseQuotient n x) := by linarith
  have hhigh : (roundNearest rule (inverseQuotient n x) : Rat) < 532446 := by linarith
  have hlow' : -3 < roundNearest rule (inverseQuotient n x) := by exact_mod_cast hlow
  have hhigh' : roundNearest rule (inverseQuotient n x) < 532446 := by exact_mod_cast hhigh
  omega

/-- R68: no crystal sets both clock-select bits. -/
theorem clockSelect_not_both (x : Nat) : ¬((clockSelect x).1 = 1 ∧ (clockSelect x).2 = 1) := by
  obtain ⟨hxtal, hpll⟩ := clockSelect_eq_one_iff x
  rw [hxtal, hpll]
  omega

/-- R73, R95: the images LOWER drives. -/
theorem resultFits_of_lowerConfig_eq_ok {c : DeviceConfig} {w : WriteImage}
    (h : lowerConfig c = .ok w) : ResultFits 0b010 (.image w) := by
  obtain ⟨hcheck, N, hN, rfl⟩ := (lowerConfig_eq_ok_iff c w).1 h
  obtain ⟨hlevel, hxtal, hband⟩ := (checkConfig_eq_ok_iff c).1 hcheck
  obtain ⟨lo, hi, hrow, hmin, hmax⟩ := hxtal.exists_isBandRow
  obtain ⟨hlow, hhigh⟩ := hrow.divisor_bounds hband hN
  refine ⟨rfl, hlevel, clockSelect_not_both c.crystalFrequencyHz, ?_, ?_⟩ <;>
    rw [imageOf_divisor_toNat]
  · exact hmin.trans hlow
  · exact hhigh.trans hmax

/-- What an operation computes is of its kind and in its range. -/
theorem resultFits_of_outcomeOf_eq_ok {i : Instr} {s : State} {r : Result}
    (h : outcomeOf i s = .ok r) : ResultFits (encode i) r := by
  cases i with
  | encode =>
    obtain rfl := Except.ok.inj h
    exact ⟨rfl, encodeFrame_b4_mod s.imgIn⟩
  | decode =>
    obtain rfl := Except.ok.inj h
    exact rfl
  | lower =>
    obtain ⟨w, hw, rfl⟩ := except_map_eq_ok.1 h
    exact resultFits_of_lowerConfig_eq_ok hw
  | toReg =>
    obtain ⟨N, -, rfl⟩ := except_map_eq_ok.1 h
    exact .inl rfl
  | fromReg =>
    obtain ⟨d, hd, rfl⟩ := except_map_eq_ok.1 h
    exact ⟨rfl, fromRegister_bounds hd⟩
  | split =>
    obtain rfl := Except.ok.inj h
    exact rfl
  | join =>
    obtain rfl := Except.ok.inj h
    exact .inr rfl

/-- A step's result is one of the selected operation's. -/
theorem resultFits_of_outcomeOfSelector_eq_ok {s : State} {r : Result}
    (h : outcomeOfSelector s = .ok r) : ResultFits s.op r := by
  unfold outcomeOfSelector at h
  cases hdecode : decode s.selector with
  | ok i =>
    rw [hdecode] at h
    have hop : encode i = s.op := encode_of_decode_eq_ok hdecode
    exact hop ▸ resultFits_of_outcomeOf_eq_ok h
  | error e =>
    rw [hdecode] at h
    cases h

/-- An error the ports raise has the information its row promises. -/
theorem CodecError.RaisedBy.errorFits {e : CodecError} {s : State} (h : e.RaisedBy s) :
    ErrorFits s.op e := by
  cases e with
  | invalidConfig cause =>
    cases cause with
    | stopLevelNotAllowed => exact h.left
    | crystalUnsupported x =>
      obtain ⟨hop, hxtal⟩ := h
      exact ⟨hop.elim (fun h => .inl h.left) (fun h => .inr h.left), hxtal⟩
  | frequencyOutOfBand f =>
    obtain ⟨hop, -, hband⟩ := h
    exact ⟨hop, hband⟩
  | divisorOutOfRange n =>
    obtain ⟨hop, -, hrange⟩ := h
    exact ⟨hop, hrange⟩
  | illegalOperation op => exact h

/-- Settles O31: a step drives the selected operation's result or an error its ports raise. -/
theorem stepLeavesFittingOutputs : Obligations.StepLeavesFittingOutputs := by
  intro s t hstep
  rcases step_eq_next_cases hstep with ⟨r, hok, rfl⟩ | ⟨e, hraised, rfl⟩
  · exact ⟨rfl, resultFits_of_outcomeOfSelector_eq_ok hok⟩
  · exact ⟨rfl, e.code_ne_zero, hraised.errorFits⟩

/-! ### Runs and reset -/

/-- A run of one step more takes the first step. -/
theorem run_succ_of_step {M : Host.Core} {s s' : M.State} (h : M.step s = .next s') (k : Nat) :
    M.run (k + 1) s = M.run k s' := by
  simp only [Host.Core.run, h]

/-- What every step keeps, a run keeps. -/
theorem run_keeps {P : State → Prop} (hstep : ∀ s t, step s = .next t → P s → P t) (k : Nat)
    {s t : State} (hs : P s) (hrun : Sys2Proof.core.run k s = .next t) : P t := by
  induction k generalizing s with
  | zero =>
    obtain rfl := Host.Outcome.next.inj hrun
    exact hs
  | succ k ih =>
    have hrest := (run_succ_of_step (M := Sys2Proof.core) (step_eq_finish s) k).symm.trans hrun
    exact ih (hstep _ _ (step_eq_finish s) hs) hrest

/-- Settles O32. -/
theorem runKeepsFittingOutputs : Obligations.RunKeepsFittingOutputs := fun k _ _ hs hrun =>
  run_keeps (fun s t hstep _ => stepLeavesFittingOutputs s t hstep) k hs hrun

/-- The outputs after reset are those of the operation on the reset ports (R112). -/
theorem step_resetWith (c : DeviceConfig) :
    step (State.resetWith c) = .next (State.resetWith c) :=
  have hzero : encodeFrame WriteImage.zero = Frame.zero := rfl
  have hexec : exec .encode (State.resetWith c) =
      .next ((State.resetWith c).withResult (.frame Frame.zero)) :=
    exec_encode_eq_frame_iff.2 hzero
  (step_of_op_eq_encode rfl).trans hexec

/-- Settles O33: the reset outputs are those a step leaves. -/
theorem resetOutputsFit : Obligations.ResetOutputsFit := by
  have hfit (c : DeviceConfig) : (State.resetWith c).OutputsFit :=
    stepLeavesFittingOutputs _ _ (step_resetWith c)
  exact ⟨hfit Config.initialConfig, hfit⟩

/-- Settles O34: neither way an operation ends writes the parameter. -/
theorem tieRuleDefaultsToHalfUpAndStays : Obligations.TieRuleDefaultsToHalfUpAndStays := by
  refine ⟨fun _ => rfl, fun s t hstep => ?_⟩
  rcases step_eq_next_cases hstep with ⟨r, -, rfl⟩ | ⟨e, -, rfl⟩ <;> rfl

/-! ### What a step does not read -/

/-- The output ports before a step have no effect on it. -/
theorem step_with_outputs (s : State) (r : Option Result) (code : BitVec 3)
    (e : Option CodecError) :
    step { s with result := r, err := code, errInfo := e } = step s := by
  have hsame : outcomeOfSelector { s with result := r, err := code, errInfo := e } =
      outcomeOfSelector s := rfl
  rw [step_eq_finish, step_eq_finish, hsame]
  cases outcomeOfSelector s <;> rfl

/-- Settles O35: a step changes the output ports only, and those are not read by the next one. -/
theorem stepIdempotentAndMemoryless : Obligations.StepIdempotentAndMemoryless := by
  refine ⟨fun s t hstep => ?_, step_with_outputs⟩
  rcases step_eq_next_cases hstep with ⟨r, -, rfl⟩ | ⟨e, -, rfl⟩
  · exact (step_with_outputs s (some r) 0 none).trans hstep
  · exact (step_with_outputs s none e.code (some e)).trans hstep

end Sys2Proof.Machine

/-! ## Programs (30_encoding.md section 7, 60_exceptions.md section 3) -/

namespace Sys2Proof.Machine

/-! ### An error ends a program (R108) -/

/-- The rest of a program after an outcome: only a program that has not stopped goes on. -/
def ProgramOutcome.andThen (o : ProgramOutcome) (rest : List ProgramStep) : ProgramOutcome :=
  match o with
  | .done c => runProgram rest c
  | .ended e c => .ended e c
  | .refused r c => .refused r c

/-- A program performs its first line, then the rest. -/
theorem runProgram_cons (p : ProgramStep) (rest : List ProgramStep) (c : Caller) :
    runProgram (p :: rest) c = (c.advance p).andThen rest := by
  rw [runProgram]
  cases c.advance p <;> rfl

/-- A program in two parts performs the first, then the second. -/
theorem runProgram_append (first second : List ProgramStep) (c : Caller) :
    runProgram (first ++ second) c = (runProgram first c).andThen second := by
  induction first generalizing c with
  | nil => rfl
  | cons p rest ih =>
    rw [List.cons_append, runProgram_cons, runProgram_cons]
    cases c.advance p with
    | done c' => exact ih c'
    | ended e c' => rfl
    | refused r c' => rfl

/-- Settles O37: the later lines come after a program that has ended. -/
theorem errorEndsProgram : Obligations.ErrorEndsProgram := by
  intro earlier later p c c' e hended
  rw [List.append_cons, runProgram_append, hended]
  rfl

/-! ### Performing one line -/

section
variable {b : State} {env : Env} {st : Stmt} {req : Request}

/-- A line whose operation succeeds binds its names to the results, and the program goes on. -/
theorem runProgram_op_of_result {r : Result} (rest : List ProgramStep)
    (hreq : st.request env = .ok req)
    (hstep : step (b.present req) = .next ((b.present req).withResult r)) :
    runProgram (.op st :: rest) ⟨b, env⟩ =
      runProgram rest ⟨(b.present req).withResult r, st.names.zip r.values ++ env⟩ := by
  simp only [runProgram, Caller.advance, Caller.perform, hreq, hstep, Option.map_some,
    Option.getD_some]

/-- A line whose operation fails ends the program and binds nothing. -/
theorem runProgram_op_of_error {code : BitVec 3} {e : CodecError} (rest : List ProgramStep)
    (hreq : st.request env = .ok req)
    (hstep : step (b.present req) = .next ((b.present req).withError code e)) :
    runProgram (.op st :: rest) ⟨b, env⟩ =
      .ended e ⟨(b.present req).withError code e, env⟩ := by
  simp only [runProgram, Caller.advance, Caller.perform, hreq, hstep]

end

/-- The name bound last is read as its value, by a port of that value's type. -/
theorem Operand.read_var_cons {α : Type} {pick : Value → Option α} {v : Value} {a : α}
    (hpick : pick v = some a) (name : Nat) (env : Env) :
    (Operand.var name).read pick ((name, v) :: env) = .ok a := by
  simp only [Operand.read, Operand.eval, List.lookup_cons_self, hpick]

/-- The register of the status bound last is read as a divisor. -/
theorem Operand.read_freqReg_cons (st : Nat) (v : DeviceStatus) (env : Env) :
    (Operand.freqReg st).read Value.divisor? ((st, .status v) :: env) =
      .ok v.frequencyRegister := by
  simp only [Operand.read, Operand.eval, List.lookup_cons_self, Value.divisor?]

/-! ### The lines of the pseudo-operations (R75) -/

section
variable {code : BitVec 3} {e : CodecError} (rest : List ProgramStep) (b : State) (env : Env)

/-- LOWER of a literal config binds the image. -/
theorem runProgram_lower_of_ok {cfg : DeviceConfig} {w : WriteImage} (h : lowerConfig cfg = .ok w)
    (img : Nat) :
    runProgram (.op (.lower img (.lit (.config cfg))) :: rest) ⟨b, env⟩ =
      runProgram rest
        ⟨(b.present (.lower cfg)).withResult (.image w), (img, .image w) :: env⟩ :=
  runProgram_op_of_result rest rfl
    ((step_of_op_eq_encode (i := .lower) rfl).trans (exec_lower_eq_image_iff.2 h))

/-- LOWER of a literal config it refuses ends the program. -/
theorem runProgram_lower_of_error {cfg : DeviceConfig}
    (h : lowerConfig cfg = .error e ∧ code = e.code) (img : Nat) :
    runProgram (.op (.lower img (.lit (.config cfg))) :: rest) ⟨b, env⟩ =
      .ended e ⟨(b.present (.lower cfg)).withError code e, env⟩ :=
  runProgram_op_of_error rest rfl
    ((step_of_op_eq_encode (i := .lower) rfl).trans (exec_lower_eq_error_iff.2 h))

/-- ENCODE of the image bound last binds its frame. -/
theorem runProgram_encode_var_cons (frm img : Nat) (w : WriteImage) :
    runProgram (.op (.encode frm (.var img)) :: rest) ⟨b, (img, .image w) :: env⟩ =
      runProgram rest
        ⟨(b.present (.encode w)).withResult (.frame (encodeFrame w)),
          (frm, .frame (encodeFrame w)) :: (img, .image w) :: env⟩ := by
  refine runProgram_op_of_result rest ?_
    ((step_of_op_eq_encode (i := .encode) rfl).trans (exec_encode_eq_frame _))
  simp only [Stmt.request, Operand.read_var_cons (rfl : (Value.image w).image? = some w),
    Except.map]

/-- TO_REG of literals binds the divisor. -/
theorem runProgram_toReg_of_ok {f : Rat} {x : Nat} {N : Divisor} (h : toRegister f x = .ok N)
    (n : Nat) :
    runProgram (.op (.toReg n (.lit (.mhz f)) (.lit (.hertz x))) :: rest) ⟨b, env⟩ =
      runProgram rest
        ⟨(b.present (.toReg f x)).withResult (.divisor N), (n, .divisor N) :: env⟩ :=
  runProgram_op_of_result rest rfl
    ((step_of_op_eq_encode (i := .toReg) rfl).trans (exec_toReg_eq_divisor_iff.2 h))

/-- TO_REG of literals it refuses ends the program. -/
theorem runProgram_toReg_of_error {f : Rat} {x : Nat}
    (h : toRegister f x = .error e ∧ code = e.code) (n : Nat) :
    runProgram (.op (.toReg n (.lit (.mhz f)) (.lit (.hertz x))) :: rest) ⟨b, env⟩ =
      .ended e ⟨(b.present (.toReg f x)).withError code e, env⟩ :=
  runProgram_op_of_error rest rfl
    ((step_of_op_eq_encode (i := .toReg) rfl).trans (exec_toReg_eq_error_iff.2 h))

/-- SPLIT of the divisor bound last binds its two parts. -/
theorem runProgram_split_var_cons (u l n : Nat) (N : Divisor) :
    runProgram (.op (.split u l (.var n)) :: rest) ⟨b, (n, .divisor N) :: env⟩ =
      runProgram rest
        ⟨(b.present (.split N)).withResult (.parts (splitDivisor N).1 (splitDivisor N).2),
          (u, .upper (splitDivisor N).1) :: (l, .lower (splitDivisor N).2) ::
            (n, .divisor N) :: env⟩ := by
  refine runProgram_op_of_result rest ?_
    ((step_of_op_eq_encode (i := .split) rfl).trans (exec_split_eq_parts _))
  simp only [Stmt.request, Operand.read_var_cons (rfl : (Value.divisor N).divisor? = some N),
    Except.map]

/-- DECODE of a literal frame binds its status. -/
theorem runProgram_decode (st : Nat) (f : Frame) :
    runProgram (.op (.decode st (.lit (.frame f))) :: rest) ⟨b, env⟩ =
      runProgram rest
        ⟨(b.present (.decode f)).withResult (.status (decodeFrame f)),
          (st, .status (decodeFrame f)) :: env⟩ :=
  runProgram_op_of_result rest rfl
    ((step_of_op_eq_encode (i := .decode) rfl).trans (exec_decode_eq_status _))

/-- FROM_REG of the register of the status bound last, with a supported literal crystal, binds the
rounded frequency. -/
theorem runProgram_fromReg_freqReg_cons {x : Nat} (hxtal : SupportedCrystal x) (d st : Nat)
    (v : DeviceStatus) :
    runProgram (.op (.fromReg d (.freqReg st) (.lit (.hertz x))) :: rest)
        ⟨b, (st, .status v) :: env⟩ =
      runProgram rest
        ⟨(b.present (.fromReg v.frequencyRegister x)).withResult
            (.tenths (roundNearest b.inverseTieRule (inverseQuotient v.frequencyRegister x))),
          (d, .tenths (roundNearest b.inverseTieRule (inverseQuotient v.frequencyRegister x))) ::
            (st, .status v) :: env⟩ := by
  refine runProgram_op_of_result rest ?_ ((step_of_op_eq_encode (i := .fromReg) rfl).trans
    (exec_fromReg_eq_tenths_iff.2 (fromRegister_of_supported hxtal _ _)))
  simp only [Stmt.request, Operand.read_freqReg_cons]
  rfl

end

/-- Settles O38: the first line's image is the second line's operand. -/
theorem packIsEncodeOfLower : Obligations.PackIsEncodeOfLower := by
  refine fun b env cfg frm tmp => ⟨fun w hexec => ?_, fun code e hexec => ?_⟩
  · have hw : lowerConfig cfg = .ok w := exec_lower_eq_image_iff.1 hexec
    have hprogram := (runProgram_lower_of_ok _ b env hw tmp).trans
      (runProgram_encode_var_cons [] _ env frm tmp w)
    exact ⟨encodeFrame w, _, exec_encode_eq_frame _, hprogram, List.lookup_cons_self⟩
  · have he : lowerConfig cfg = .error e ∧ code = e.code := exec_lower_eq_error_iff.1 hexec
    exact ⟨_, runProgram_lower_of_error _ b env he tmp, rfl⟩

/-- A binding of another name does not hide an older one. -/
theorem lookup_cons_of_ne {name other : Nat} (h : name ≠ other) (v : Value) (env : Env) :
    List.lookup name ((other, v) :: env) = List.lookup name env := by
  rw [List.lookup_cons, beq_false_of_ne h]

/-- Settles O39: the first line's divisor is the second line's operand. -/
theorem freqPairIsSplitOfToReg : Obligations.FreqPairIsSplitOfToReg := by
  refine fun b env f x u l tmp hne => ⟨fun N hexec => ?_, fun code e hexec => ?_⟩
  · have hN : toRegister f x = .ok N := exec_toReg_eq_divisor_iff.1 hexec
    have hprogram := (runProgram_toReg_of_ok _ b env hN tmp).trans
      (runProgram_split_var_cons [] _ env u l tmp N)
    refine ⟨(splitDivisor N).1, (splitDivisor N).2, _, hprogram, List.lookup_cons_self,
      (lookup_cons_of_ne hne.symm _ _).trans List.lookup_cons_self, ?_⟩
    rw [← joinDivisor_toNat, joinDivisor_splitDivisor]
  · have he : toRegister f x = .error e ∧ code = e.code := exec_toReg_eq_error_iff.1 hexec
    exact ⟨_, runProgram_toReg_of_error _ b env he tmp, rfl⟩

/-- Settles O40: FROM_REG's operand is the decoded register, and the crystal is the caller's. -/
theorem statusFreqConvertsDecodedDivisor : Obligations.StatusFreqConvertsDecodedDivisor := by
  intro c f x st d hxtal
  have hprogram := (runProgram_decode _ c.block c.env st f).trans
    (runProgram_fromReg_freqReg_cons [] _ c.env hxtal d st (decodeFrame f))
  refine ⟨_, _, hprogram, List.lookup_cons_self, ?_⟩
  rw [← decodeFrame_frequencyRegister_toNat]
  exact roundNearest_isNearest _ _

end Sys2Proof.Machine
